-- ==== Sys2Proof/Word.lean ====
section
/-! DEFINITION. The words of EGTS-CORE (spec/00_scope.md R7, R8, R9): unsigned integers of fixed
width, byte sequences and the raw bits of a binary64 value. -/

namespace Sys2Proof

/-- u8 (R8). -/
abbrev Byte := BitVec 8

/-- u16 (R8): command words, record counter, packet id, every length field, the payload CRC (R7). -/
abbrev U16 := BitVec 16

/-- u24 (R8): the odometer. -/
abbrev U24 := BitVec 24

/-- u32 (R8): the terminal id, timestamps and coordinates. -/
abbrev U32 := BitVec 32

/-- The 64 bits of an i64 operand (R8). -/
abbrev I64 := BitVec 64

/-- The 64 bits of an IEEE-754 binary64 value (R8, R14). -/
abbrev F64 := BitVec 64

/-- A byte sequence (R9): a finite list of u8, byte 0 first. -/
abbrev Bytes := List Byte

end Sys2Proof
end

