-- ==== Sys2Proof/Machine/Interface.lean ====
section
/-! DEFINITION. What crosses the boundary between the host and the engine: the command with its operand
bundle (spec/30_encoding.md R70, R72), the response (R73) and the error codes (spec/60_exceptions.md
R202). -/

namespace Sys2Proof

/-- A command word with its operand bundle (R70, R72). A field that is not given takes R77's default:
`[]`, 0 or absent. -/
structure Command where
  /-- CMD. -/
  cmd : U16
  /-- op.DATA. -/
  data : Bytes := []
  /-- op.TID. -/
  tid : U32 := 0
  /-- op.NOW, the bits of an i64. -/
  now : I64 := 0
  /-- op.LAT. -/
  lat : Option F64 := none
  /-- op.LON. -/
  lon : Option F64 := none
  /-- op.SPD. -/
  spd : Option F64 := none
  deriving DecidableEq, Repr

/-- The errors of R202. -/
inductive ErrorCode where
  /-- R203. -/
  | unsupportedRecordType
  /-- R204. -/
  | missingField
  /-- R205. -/
  | emptyBuffer
  /-- R206. -/
  | lengthOverflow
  /-- R207. -/
  | illegalCommand
  /-- R208. -/
  | noSession
  /-- R209. -/
  | fieldRange
  deriving DecidableEq, Repr

/-- The result of a command that completes (R73). -/
inductive Result where
  /-- SESSION_INIT and APPEND. -/
  | none
  /-- CRC8. -/
  | u8 (v : Byte)
  /-- CRC16 and TOTAL_LENGTH. -/
  | u16 (v : U16)
  /-- FINALIZE. -/
  | bytes (v : Bytes)
  deriving DecidableEq, Repr

/-- The one response of a command (R73). -/
inductive Response where
  | ok (r : Result)
  | err (e : ErrorCode)
  deriving DecidableEq, Repr

end Sys2Proof
end

