-- ==== Sys2Proof/Syntax.lean ====
section
/-! DEFINITION. The nine commands of EGTS-CORE (spec/30_encoding.md R71), each with the operand fields
it reads (R72, R77). A field a command does not read is not part of its syntax (log 19). -/

namespace Sys2Proof

/-- One constructor per row of spec/opcode_table.json. `now` is the i64 operand as an integer (R75);
`lat`, `lon`, `spd` are optional binary64 operands (R72, R76). -/
inductive Instr where
  /-- SESSION_INIT, R100. -/
  | sessionInit (tid : U32) (imei : Bytes)
  /-- CRC8, R115. -/
  | crc8 (data : Bytes)
  /-- CRC16, R117. -/
  | crc16 (data : Bytes)
  /-- APPEND.T1, R144. -/
  | appendT1 (now : Int)
  /-- APPEND.T2, R145. -/
  | appendT2 (now : Int)
  /-- APPEND.T4, R146. -/
  | appendT4
  /-- APPEND.T16, R147. -/
  | appendT16 (now : Int) (lat lon spd : Option F64)
  /-- TOTAL_LENGTH, R161. -/
  | totalLength
  /-- FINALIZE, R173. -/
  | finalize
  deriving DecidableEq, Repr

end Sys2Proof
end

