-- ==== Sys2Proof/WellFormed.lean ====
section
/-! DEFINITION. Which instructions can be issued: `op.NOW` is an i64 (spec/30_encoding.md R72). Every
other field is well formed by its type. -/

namespace Sys2Proof

/-- The range of a two's-complement signed 64-bit integer (R8). -/
def isI64 (n : Int) : Bool := decide (-2 ^ 63 ≤ n) && decide (n < 2 ^ 63)

/-- An instruction is well formed when its time operand fits the bundle's i64 field (R72). -/
def Instr.wellFormed : Instr → Bool
  | .appendT1 now => isI64 now
  | .appendT2 now => isI64 now
  | .appendT16 now _ _ _ => isI64 now
  | .sessionInit _ _ => true
  | .crc8 _ => true
  | .crc16 _ => true
  | .appendT4 => true
  | .totalLength => true
  | .finalize => true

end Sys2Proof
end

