-- ==== Sys2Proof/Decode.lean ====
section
/-! DEFINITION. Decoding a command (spec/30_encoding.md R70, R71, R74) and the encoder back. Decoding is
total: a command word outside the opcode map is rejected by the name of its error. -/

namespace Sys2Proof

/-- CMD[15:8] (R70). -/
def Command.op (c : Command) : Byte := c.cmd.extractLsb' 8 8

/-- CMD[7:0] (R70). -/
def Command.sub (c : Command) : Byte := c.cmd.extractLsb' 0 8

/-- The decoding of OP 0x04 (R74): SUB is the record type. -/
def decodeAppend (c : Command) : Except ErrorCode Instr :=
  match c.sub.toNat with
  | 0x01 => .ok (.appendT1 c.now.toInt)
  | 0x02 => .ok (.appendT2 c.now.toInt)
  | 0x04 => .ok .appendT4
  | 0x10 => .ok (.appendT16 c.now.toInt c.lat c.lon c.spd)
  | _ => .error .unsupportedRecordType

/-- `require SUB = 0x00 else IllegalCommand` (R74). -/
def requireSubZero (c : Command) (i : Instr) : Except ErrorCode Instr :=
  if c.sub = 0 then .ok i else .error .illegalCommand

/-- `decode(CMD)` (R74), with the operand fields the command reads (R72). -/
def decode (c : Command) : Except ErrorCode Instr :=
  match c.op.toNat with
  | 0x01 => requireSubZero c (.sessionInit c.tid c.data)
  | 0x02 => requireSubZero c (.crc8 c.data)
  | 0x03 => requireSubZero c (.crc16 c.data)
  | 0x04 => decodeAppend c
  | 0x05 => requireSubZero c .totalLength
  | 0x06 => requireSubZero c .finalize
  | _ => .error .illegalCommand

/-- The command word of an instruction, from the opcode map (R71). -/
def Instr.word : Instr → U16
  | .sessionInit _ _ => 0x0100
  | .crc8 _ => 0x0200
  | .crc16 _ => 0x0300
  | .appendT1 _ => 0x0401
  | .appendT2 _ => 0x0402
  | .appendT4 => 0x0404
  | .appendT16 _ _ _ _ => 0x0410
  | .totalLength => 0x0500
  | .finalize => 0x0600

/-- The command an instruction is issued as (R71, R72, R77): fields it does not read take R77's
default. -/
def encode (i : Instr) : Command :=
  match i with
  | .sessionInit tid imei => { cmd := i.word, tid := tid, data := imei }
  | .crc8 data => { cmd := i.word, data := data }
  | .crc16 data => { cmd := i.word, data := data }
  | .appendT1 now => { cmd := i.word, now := BitVec.ofInt 64 now }
  | .appendT2 now => { cmd := i.word, now := BitVec.ofInt 64 now }
  | .appendT16 now lat lon spd =>
    { cmd := i.word, now := BitVec.ofInt 64 now, lat := lat, lon := lon, spd := spd }
  | .appendT4 => { cmd := i.word }
  | .totalLength => { cmd := i.word }
  | .finalize => { cmd := i.word }

/-- The pseudo-instruction `APPEND <n>` (R78): the command word 0x0400 | n. -/
def appendWord (n : Byte) : U16 := 0x0400 ||| n.setWidth 16

/-- The command with word `w` and every operand at R77's default. -/
def commandOfWord (w : Nat) : Command := { cmd := BitVec.ofNat 16 w }

/-- The instruction the decoder reads from a command word of `nbits` bits with every operand at its
default; none where it rejects the word, or where the word has bits above 15 (R70, R79). -/
def decodeTableWord (nbits w : Nat) : Option Instr :=
  if nbits ≤ 16 ∧ w < 2 ^ 16 then (decode (commandOfWord w)).toOption else none

/-- The numeric error codes (R202). -/
def ErrorCode.code : ErrorCode → Byte
  | .unsupportedRecordType => 0x01
  | .missingField => 0x02
  | .emptyBuffer => 0x03
  | .lengthOverflow => 0x04
  | .illegalCommand => 0x10
  | .noSession => 0x11
  | .fieldRange => 0x12

/-- The status byte STATUS (R73): 0x00 for `ok`, the error code for `err`. -/
def Response.status : Response → Byte
  | .ok _ => 0x00
  | .err e => e.code

end Sys2Proof
end

