-- ==== Sys2Proof/Config.lean ====
section
/-! DEFINITION. The implementation parameters of spec/00_scope.md R6 and the free values.
A parameter the spec leaves `OPEN`, and a value it leaves open, is an opaque constant: nothing in
Lean can evaluate it or prove a value of it. -/

namespace Sys2Proof

/-- P_ROUND (R6, R14): which neighbour `roundInt` takes when a value lies exactly between two
integers. DESIGN CHOICE (log 12): the five usual tie rules are listed. -/
inductive TieRule where
  /-- The even neighbour: the default (R6, D17). -/
  | halfEven
  /-- The neighbour of larger magnitude. -/
  | halfAwayFromZero
  /-- The neighbour of smaller magnitude. -/
  | halfTowardZero
  /-- The larger neighbour. -/
  | halfUp
  /-- The smaller neighbour. -/
  | halfDown
  deriving DecidableEq, Repr

/-- P_ARITH (R6, D16): how the real-valued formulas of R131 and R133 are evaluated.
DESIGN CHOICE (log 13): the two evaluations the spec speaks of are listed. -/
inductive Arith where
  /-- IEEE-754 binary64, rounded to nearest even at each operation: the default (R6). -/
  | binary64
  /-- Exact real evaluation (D16, N17). -/
  | exactReal
  deriving DecidableEq, Repr

/-- The configuration registers (spec/10_state.md R30), with the two parameters P_ROUND and P_ARITH of
R6. Each is read-only. -/
structure Cfg where
  /-- CFG_TZ_OFFSET, any integer number of seconds. -/
  tzOffset : Int
  /-- CFG_MODULE_TEMPLATE, the type-2 body. -/
  moduleTemplate : Vector Byte 8
  /-- CFG_DIRECTION. -/
  direction : Byte
  /-- CFG_ODOMETER. -/
  odometer : U24
  /-- CFG_DIGITAL_INPUTS. -/
  digitalInputs : Byte
  /-- CFG_SOURCE_BYTE. -/
  sourceByte : Byte
  /-- CFG_FLAGS_T16. -/
  flagsT16 : Byte
  /-- CFG_FLAGS_T4. -/
  flagsT4 : Byte
  /-- CFG_SST_T4. -/
  sstT4 : Byte
  /-- CFG_RST_T4. -/
  rstT4 : Byte
  /-- CFG_MSISDN_FILL. -/
  msisdnFill : Byte
  /-- P_ROUND. -/
  round : TieRule
  /-- P_ARITH. -/
  arith : Arith
  deriving DecidableEq, Repr

namespace Config

/-- P_TZ_OFFSET_S, default 180*60 (R6, D43). -/
def tzOffset : Int := 10800

/-- P_MSISDN_FILL, default ASCII `0` (R6, D14). -/
def msisdnFill : Byte := 0x30

/-- P_MODULE_TEMPLATE, OPEN (R6, log 10). -/
opaque moduleTemplate : Vector Byte 8

/-- P_DIRECTION, OPEN (R6, log 10). -/
opaque direction : Byte

/-- P_ODOMETER, OPEN (R6, log 10). -/
opaque odometer : U24

/-- P_DIGITAL_INPUTS, OPEN (R6, log 10). -/
opaque digitalInputs : Byte

/-- P_SOURCE_BYTE, OPEN (R6, log 10). -/
opaque sourceByte : Byte

/-- P_FLAGS_T16, OPEN (R6, log 10). -/
opaque flagsT16 : Byte

/-- P_FLAGS_T4, OPEN (R6, log 10). -/
opaque flagsT4 : Byte

/-- P_SST_T4, OPEN (R6, log 10). -/
opaque sstT4 : Byte

/-- P_RST_T4, OPEN (R6, log 10). -/
opaque rstT4 : Byte

/-- The configuration registers of the instance `State.reset` describes (R6, R30). -/
def cfg : Cfg where
  tzOffset := tzOffset
  moduleTemplate := moduleTemplate
  direction := direction
  odometer := odometer
  digitalInputs := digitalInputs
  sourceByte := sourceByte
  flagsT16 := flagsT16
  flagsT4 := flagsT4
  sstT4 := sstT4
  rstT4 := rstT4
  msisdnFill := msisdnFill
  round := .halfEven
  arith := .binary64

/-- FREE VALUE (log 8): the latitude field when the binary64 product of R131 is infinite. The argument
is `State.freeIndex`. -/
opaque latitudeOverflow : Nat → U32

/-- FREE VALUE (log 8): the longitude field when the binary64 product of R131 is infinite. -/
opaque longitudeOverflow : Nat → U32

/-- FREE VALUE (log 6): what PACKET_ID holds while it is unwritten after SESSION_INIT (R100, U13). -/
opaque unwrittenPacketId : Nat → U16

end Config

end Sys2Proof
end

