-- ==== Sys2Proof/Machine/State.lean ====
section
/-! DEFINITION. The state of EGTS-CORE (spec/10_state.md): the session registers, the configuration
registers, the two ROMs, and the model's own record of what the host has sent and received. -/

namespace Sys2Proof.Machine

open Sys2Proof

/-- Why a step may stop with a fault: never. EGTS-CORE has no trap, lock-up or stuck state, and an error
is a response after which the engine goes on (R201, R211), so this type has no constructor. Safe. -/
inductive Fault where
  deriving DecidableEq, Repr

/-- Why a step may be refused. -/
inductive Refusal where
  /-- An instruction with no meaning yet, by its mnemonic. Raised by no arm of `exec`: every command of
  R71 has its meaning. Safe. -/
  | notModelled (mnemonic : String)
  deriving DecidableEq, Repr

/-- A session register: the value it holds, and whether it is written (spec/10_state.md section 2; log 4,
log 5). `unwritten` is `written = false`; the value is then of no meaning (U13). -/
structure Reg (α : Type) where
  val : α
  written : Bool
  deriving DecidableEq, Repr

/-- The machine. -/
structure State where
  /-- SESSION_VALID, R23. -/
  sessionValid : Bool
  /-- TERMINAL_ID, R24. -/
  terminalId : Reg U32
  /-- IMEI, R25. -/
  imei : Reg Bytes
  /-- RECORD_COUNTER, R26. -/
  recordCounter : Reg U16
  /-- PACKET_ID, R27. -/
  packetId : Reg U16
  /-- PENDING, R28, R56. -/
  pending : Reg Bytes
  /-- The configuration registers, R30. -/
  cfg : Cfg
  /-- ROM8, R31. -/
  rom8 : Vector Byte 256
  /-- ROM16, R32. -/
  rom16 : Vector U16 256
  /-- The MODEL's own (log 1): the commands the host has lined up, oldest first (R234). -/
  input : List Command
  /-- The MODEL's own (log 2): the responses returned so far, oldest first (R238). -/
  output : List Response
  /-- The MODEL's own (log 7): the index of the next free values. -/
  freeIndex : Nat
  deriving DecidableEq, Repr

/-- The reset event of an instance with the given parameters (R230): no session, session registers
unwritten, configuration registers and ROMs at their parameter values, no command and no response.
The values inside the unwritten registers are DESIGN CHOICES (log 4). -/
def State.powerOn (cfg : Cfg) (rom8 : Vector Byte 256) (rom16 : Vector U16 256) : State where
  sessionValid := false
  terminalId := ⟨0, false⟩
  imei := ⟨[], false⟩
  recordCounter := ⟨0, false⟩
  packetId := ⟨0, false⟩
  pending := ⟨[], false⟩
  cfg := cfg
  rom8 := rom8
  rom16 := rom16
  input := []
  output := []
  freeIndex := 0

/-- The machine right after reset (R230), with the parameters of R6. -/
def State.reset : State := State.powerOn Config.cfg defaultTable8 defaultTable16

end Sys2Proof.Machine
end

