-- ==== Sys2Proof/Machine/Ops.lean ====
section
/-! DEFINITION. The shared operations: serialisers, register writes, taking a command, completing with a
result, raising an error, and the commit of a record. -/

namespace Sys2Proof.Machine

open Sys2Proof

/-- What one step answers. -/
abbrev StepResult := Host.Outcome State Fault Refusal

/-- LE16 (R10). -/
def le16 (v : U16) : Bytes := [v.extractLsb' 0 8, v.extractLsb' 8 8]

/-- LE24 (R10). -/
def le24 (v : U24) : Bytes := [v.extractLsb' 0 8, v.extractLsb' 8 8, v.extractLsb' 16 8]

/-- LE32 (R10). -/
def le32 (v : U32) : Bytes :=
  [v.extractLsb' 0 8, v.extractLsb' 8 8, v.extractLsb' 16 8, v.extractLsb' 24 8]

/-- The value of a register after `NAME <- v` (R11): written. -/
def Reg.set {α : Type} (v : α) : Reg α := ⟨v, true⟩

/-- PENDING never exceeds 65535 bytes (R28, R29). -/
abbrev Pending.wf (p : Bytes) : Prop := p.length ≤ 65535

/-- The byte of PENDING at an offset; none outside the buffer (R56, R60). -/
def State.pendingByte (s : State) (off : Nat) : Option Byte := s.pending.val[off]?

/-- The engine takes the command at the head of the host's list, which leaves `rest`. The index of the
free values advances, so that no two commands share one (log 7). -/
def State.take (s : State) (rest : List Command) : State :=
  { s with input := rest, freeIndex := s.freeIndex + 1 }

/-- The response of the command is handed to the host (R73). -/
def State.respond (s : State) (r : Response) : State := { s with output := s.output ++ [r] }

/-- `raise E` (R13, R200): the response is err(E) and every register is as before. This is all that
happens on an error: there is no trap entry (R211), and no return from one (R212). -/
def raiseError (e : ErrorCode) (s : State) : StepResult := .next (s.respond (.err e))

/-- A command completes with `result: r` (R73) in the state `s` its writes leave. -/
def complete (r : Result) (s : State) : StepResult := .next (s.respond (.ok r))

/-- `require SESSION_VALID = 1 else NoSession` (R208). -/
def requireSession (s : State) (k : StepResult) : StepResult :=
  if s.sessionValid then k else raiseError .noSession s

/-- The commit of ACCUMULATE (R160): both writes together. -/
def State.commitRecord (s : State) (record : Bytes) : State :=
  { s with
    pending := Reg.set (s.pending.val ++ record)
    recordCounter := Reg.set (s.recordCounter.val + 1) }

/-- ACCUMULATE(rec) (R160). -/
def accumulate (record : Bytes) (s : State) : StepResult :=
  if s.pending.val.length + record.length ≤ 65535 then complete .none (s.commitRecord record)
  else raiseError .lengthOverflow s

/-- The common sequence of every APPEND after decoding (R143): the session, then the record with the
errors its encoding raises, then ACCUMULATE. -/
def appendRecord (record : Except ErrorCode Bytes) (s : State) : StepResult :=
  requireSession s <|
    match record with
    | .ok bytes => accumulate bytes s
    | .error e => raiseError e s

end Sys2Proof.Machine
end

