-- ==== Sys2Proof/Machine/Accumulator.lean ====
section
/-! DEFINITION. TOTAL_LENGTH (spec/43_accumulator.md R161). ACCUMULATE, the commit of every APPEND
(R160), is a shared operation of Machine/Ops.lean. -/

namespace Sys2Proof.Machine

open Sys2Proof

/-- TOTAL_LENGTH (R161). -/
def execTotalLength (s : State) : StepResult :=
  requireSession s <|
    if s.pending.val.length ≤ 65535 then
      complete (.u16 (BitVec.ofNat 16 s.pending.val.length)) s
    else raiseError .lengthOverflow s

end Sys2Proof.Machine
end

