-- ==== Sys2Proof/Machine/Checksum.lean ====
section
/-! DEFINITION. The two CRC engines and the commands that expose them (spec/41_checksum.md R114 to
R117). -/

namespace Sys2Proof.Machine

open Sys2Proof

/-- ROM8[i] (R11, R31, R119). -/
def readRom8 (rom8 : Vector Byte 256) (i : Byte) : Byte := rom8[i.toNat]'i.isLt

/-- ROM16[i] (R11, R32, R119). -/
def readRom16 (rom16 : Vector U16 256) (i : Byte) : U16 := rom16[i.toNat]'i.isLt

/-- The loop of `crc8` from a value of the accumulator ACC8 (R33, R114), byte 0 first. -/
def crc8From (rom8 : Vector Byte 256) (acc8 : Byte) : Bytes → Byte
  | [] => acc8
  | b :: s => crc8From rom8 (readRom8 rom8 (acc8 ^^^ b)) s

/-- `crc8(s)` (R114). -/
def crc8 (rom8 : Vector Byte 256) (s : Bytes) : Byte := crc8From rom8 0xFF s

/-- One step of the loop of `crc16` (R116). -/
def crc16Step (rom16 : Vector U16 256) (acc16 : U16) (b : Byte) : U16 :=
  (acc16 <<< 8) ^^^ readRom16 rom16 (acc16.extractLsb' 8 8 ^^^ b)

/-- The loop of `crc16` from a value of the accumulator ACC16 (R33, R116), byte 0 first. -/
def crc16From (rom16 : Vector U16 256) (acc16 : U16) : Bytes → U16
  | [] => acc16
  | b :: s => crc16From rom16 (crc16Step rom16 acc16 b) s

/-- `crc16(s)` (R116). -/
def crc16 (rom16 : Vector U16 256) (s : Bytes) : U16 := crc16From rom16 0xFFFF s

/-- CRC8 (R115): no session needed, no state written. -/
def execCrc8 (data : Bytes) (s : State) : StepResult := complete (.u8 (crc8 s.rom8 data)) s

/-- CRC16 (R117): no session needed, no state written. -/
def execCrc16 (data : Bytes) (s : State) : StepResult := complete (.u16 (crc16 s.rom16 data)) s

end Sys2Proof.Machine
end

