-- ==== Sys2Proof/Machine/Packet.lean ====
section
/-! DEFINITION. The packet-header generator, the packet serialiser and FINALIZE (spec/44_packet.md R170 to
R175). -/

namespace Sys2Proof.Machine

open Sys2Proof

/-- `header10(fdl, pid)` (R84, R170). -/
def header10 (fdl pid : U16) : Bytes :=
  [0x01, 0x00, 0x00, 0x0B, 0x00] ++ le16 fdl ++ le16 pid ++ [0x01]

/-- `packet(recs, pid)` (R85, R171, R172), with the engines' ROMs. -/
def packet (rom8 : Vector Byte 256) (rom16 : Vector U16 256) (recs : Bytes) (pid : U16) : Bytes :=
  let header := header10 (BitVec.ofNat 16 recs.length) pid
  header ++ [crc8 rom8 header] ++ recs ++ le16 (crc16 rom16 recs)

/-- The commit of FINALIZE (R173): PACKET_ID is written and PENDING emptied; RECORD_COUNTER is not
written. -/
def State.closePacket (s : State) (pid : U16) : State :=
  { s with packetId := Reg.set pid, pending := Reg.set [] }

/-- FINALIZE (R173). -/
def execFinalize (s : State) : StepResult :=
  requireSession s <|
    if s.pending.val.length > 0 then
      let pid := s.recordCounter.val
      complete (.bytes (packet s.rom8 s.rom16 s.pending.val pid)) (s.closePacket pid)
    else raiseError .emptyBuffer s

end Sys2Proof.Machine
end

