-- ==== Sys2Proof/Machine/Session.lean ====
section
/-! DEFINITION. The session command (spec/40_session.md R100 to R102). -/

namespace Sys2Proof.Machine

open Sys2Proof

/-- The state a new session starts in (R100). PACKET_ID becomes unwritten; the value left in it is free
(U13, log 6). -/
def State.newSession (s : State) (tid : U32) (imei : Bytes) : State :=
  { s with
    terminalId := Reg.set tid
    imei := Reg.set imei
    recordCounter := Reg.set 1
    packetId := ⟨Config.unwrittenPacketId s.freeIndex, false⟩
    pending := Reg.set []
    sessionValid := true }

/-- SESSION_INIT (R100): it creates the session, or replaces the one there is (R102). It appends no
record and consumes no record number (R101). -/
def execSessionInit (tid : U32) (imei : Bytes) (s : State) : StepResult :=
  complete .none (s.newSession tid imei)

end Sys2Proof.Machine
end

