-- ==== Sys2Proof/Machine/Binary64.lean ====
section
/-! DEFINITION. The floating-point primitives of spec/00_scope.md R14, on the bits of a binary64 value.
Every finite binary64 magnitude is a whole number of units of 2^-1074, so magnitudes are fractions of
natural numbers and each operation is computed exactly and rounded once. -/

namespace Sys2Proof.Machine

open Sys2Proof

/-- A magnitude: the non-negative fraction `num / den`. -/
structure Frac where
  num : Nat
  den : Nat
  deriving DecidableEq, Repr

/-- The integer nearest `x`; a tie goes as the rule says for a value of sign `neg` (R14). The result is a
magnitude. -/
def nearest (rule : TieRule) (neg : Bool) (x : Frac) : Nat :=
  let q := x.num / x.den
  let r := x.num % x.den
  if 2 * r < x.den then q
  else if x.den < 2 * r then q + 1
  else
    match rule with
    | .halfEven => if q % 2 = 0 then q else q + 1
    | .halfAwayFromZero => q + 1
    | .halfTowardZero => q
    | .halfUp => if neg then q else q + 1
    | .halfDown => if neg then q + 1 else q

/-- The sign bit. -/
def f64Sign (d : F64) : Bool := d.getLsbD 63

/-- The biased exponent field. -/
def f64Exp (d : F64) : Nat := (d.extractLsb' 52 11).toNat

/-- The fraction field. -/
def f64Fraction (d : F64) : Nat := (d.extractLsb' 0 52).toNat

/-- `isFinite(d)` (R14): neither an infinity nor a NaN. -/
def f64IsFinite (d : F64) : Bool := f64Exp d != 2047

/-- A NaN: the largest exponent with a nonzero fraction. -/
def f64IsNaN (d : F64) : Bool := f64Exp d == 2047 && f64Fraction d != 0

/-- `abs(d)` (R14): the sign bit cleared. -/
def f64Abs (d : F64) : F64 := d &&& 0x7FFFFFFFFFFFFFFF

/-- `d < 0` (R14): false for NaN and for both zeros. -/
def f64IsNegative (d : F64) : Bool := f64Sign d && !f64IsNaN d && f64Abs d != 0

/-- The magnitude of a finite binary64 value in units of 2^-1074: a subnormal's fraction as it stands,
a normal's with its hidden bit, scaled. -/
def f64Units (d : F64) : Nat :=
  if f64Exp d = 0 then f64Fraction d else (2 ^ 52 + f64Fraction d) <<< (f64Exp d - 1)

/-- The magnitude of a finite binary64 value. -/
def f64Magnitude (d : F64) : Frac := ⟨f64Units d, 2 ^ 1074⟩

/-- The bits below the sign of the binary64 value nearest `x`, ties to even, overflow to infinity. `k`
counts how many bits the result's quantum lies above 2^-1074; a significand that rounds up to 2^53
carries into the exponent field. -/
def roundBits (x : Frac) : Nat :=
  let units := x.num * 2 ^ 1074
  let k := Nat.log2 (units / x.den) - 52
  min (k * 2 ^ 52 + nearest .halfEven false ⟨units, x.den * 2 ^ k⟩) (2047 * 2 ^ 52)

/-- `fl64` (R14) of an exact real of sign `neg` and magnitude `x`. -/
def fl64 (neg : Bool) (x : Frac) : F64 :=
  BitVec.ofNat 64 ((if neg then 2 ^ 63 else 0) + roundBits x)

/-- `fl64(a * b)` (R14) of finite operands; R131 and R133 apply it to no other (log 17). -/
def f64Mul (a b : F64) : F64 :=
  fl64 (f64Sign a != f64Sign b) ⟨f64Units a * f64Units b, 2 ^ 2148⟩

/-- `fl64(a / b)` (R14) of finite operands with `b` not zero; R131 applies it to no other (log 17). -/
def f64Div (a b : F64) : F64 := fl64 (f64Sign a != f64Sign b) ⟨f64Units a, f64Units b⟩

/-- `roundInt(d)` of a finite value (R14), ties by P_ROUND. -/
def f64RoundInt (rule : TieRule) (d : F64) : Int :=
  let n := nearest rule (f64Sign d) (f64Magnitude d)
  if f64Sign d then -(n : Int) else n

/-- 10.0. -/
def f64Ten : F64 := 0x4024000000000000

/-- 90.0. -/
def f64Ninety : F64 := 0x4056800000000000

/-- 180.0. -/
def f64OneEighty : F64 := 0x4066800000000000

/-- 4294967295.0, exactly representable (R131). -/
def f64MaxU32 : F64 := 0x41EFFFFFFFE00000

end Sys2Proof.Machine
end

