-- ==== Sys2Proof/Machine/Flags.lean ====
section
/-! DEFINITION. The flag bytes of a record. EGTS-CORE has no status flags (spec/10_state.md R21): no
command writes a flag of the machine. -/

namespace Sys2Proof.Machine

open Sys2Proof

/-- `pflags(lat, lon)` (R86, R132, R134): bit 0 set, bit 1 the sign of the longitude, bit 2 the sign of
the latitude, bits 7:3 zero. -/
def pflags (lat lon : F64) : Byte :=
  0x01 ||| ((if f64IsNegative lon then 1 else 0) <<< 1) ||| ((if f64IsNegative lat then 1 else 0) <<< 2)

/-- record_flags of types 1 and 2 (R88, R140). -/
def recordFlags : Byte := 0x05

end Sys2Proof.Machine
end

