-- ==== Sys2Proof/Machine/Operands.lean ====
section
/-! DEFINITION. The field encoders of spec/42_subrecord.md section 1 that turn an operand into the bits of
a field: the timestamp, the coordinate and the speed. -/

namespace Sys2Proof.Machine

open Sys2Proof

/-- `ts(now)` (R130). -/
def ts (cfg : Cfg) (now : Int) : Except ErrorCode U32 :=
  let t := now - cfg.tzOffset
  if 0 ≤ t ∧ t ≤ 2 ^ 32 - 1 then .ok (BitVec.ofInt 32 t) else .error .fieldRange

/-- The rounded magnitude `abs(d) / div * 0xFFFFFFFF` of a finite `d` (R131), by P_ARITH and P_ROUND.
None where the binary64 product is infinite, for which R131 gives no value (log 8). -/
def coordMagnitude (cfg : Cfg) (d div : F64) : Option Int :=
  match cfg.arith with
  | .binary64 =>
    let q := f64Mul (f64Div (f64Abs d) div) f64MaxU32
    if f64IsFinite q then some (f64RoundInt cfg.round q) else none
  | .exactReal => some (nearest cfg.round false ⟨f64Units d * 4294967295, f64Units div⟩)

/-- `coord(d, div)` (R131), truncated to 32 bits. `free` stands in for the one value R131 does not
give (log 8). -/
def coord (cfg : Cfg) (d div : F64) (free : U32) : Except ErrorCode U32 :=
  if f64IsFinite d then
    match coordMagnitude cfg d div with
    | some n => .ok (BitVec.ofInt 32 n)
    | none => .ok free
  else .error .fieldRange

/-- The rounded `v * 10` of a finite `v` (R133), by P_ARITH and P_ROUND. None where the binary64 product
is infinite. -/
def speedTenths (cfg : Cfg) (v : F64) : Option Int :=
  match cfg.arith with
  | .binary64 =>
    let p := f64Mul v f64Ten
    if f64IsFinite p then some (f64RoundInt cfg.round p) else none
  | .exactReal =>
    let n := nearest cfg.round (f64Sign v) ⟨f64Units v * 10, 2 ^ 1074⟩
    some (if f64Sign v then -(n : Int) else n)

/-- `speed(v)` (R133). An infinite product lies outside 0 to 65535, so it is `FieldRange` (R209; DEDUCED,
log 9). -/
def speed (cfg : Cfg) (v : F64) : Except ErrorCode U16 :=
  if f64IsFinite v then
    match speedTenths cfg v with
    | some n => if 0 ≤ n ∧ n ≤ 65535 then .ok (BitVec.ofInt 16 n) else .error .fieldRange
    | none => .error .fieldRange
  else .error .fieldRange

end Sys2Proof.Machine
end

