-- ==== Sys2Proof/Machine/Subrecord.lean ====
section
/-! DEFINITION. The subrecord encoder, the record-frame assembler and the four APPEND commands
(spec/42_subrecord.md R135 to R147). -/

namespace Sys2Proof.Machine

open Sys2Proof

/-- Body of type 1, terminal identity (R83, R135). -/
def body1 (s : State) : Bytes :=
  le32 s.terminalId.val ++ [0x9E] ++ s.imei.val ++ List.replicate 16 0x30 ++ [0x72, 0x75, 0x73]
    ++ List.replicate 15 s.cfg.msisdnFill

/-- Body of type 2, module data (R83, R136). -/
def body2 (s : State) : Bytes := s.cfg.moduleTemplate.toList

/-- Body of type 4, auth/service identity (R83, R137). -/
def body4 (s : State) : Bytes :=
  [0x02, 0x02] ++ le32 s.terminalId.val ++ [0x02] ++ s.imei.val

/-- Body of type 16, position data (R83, R138), from the checked fields. -/
def body16 (s : State) (t la lo : U32) (flags : Byte) (sp : U16) : Bytes :=
  le32 t ++ le32 la ++ le32 lo ++ [flags] ++ le16 sp ++ [s.cfg.direction] ++ le24 s.cfg.odometer
    ++ [s.cfg.digitalInputs] ++ [s.cfg.sourceByte]

/-- The service block (R82, R139). -/
def serviceBlock (rt : Byte) (body : Bytes) : Except ErrorCode Bytes :=
  if body.length ≤ 65535 then .ok ([rt] ++ le16 (BitVec.ofNat 16 body.length) ++ body)
  else .error .lengthOverflow

/-- record_length: the length of the service block (R142). -/
def recordLength (sb : Bytes) : Except ErrorCode U16 :=
  if sb.length ≤ 65535 then .ok (BitVec.ofNat 16 sb.length) else .error .lengthOverflow

/-- The long record header of types 1, 2 and 16 (R80, R140). -/
def headerLong (s : State) (rl : U16) (flags : Byte) (t : U32) (sst rst : Byte) : Bytes :=
  le16 rl ++ le16 s.recordCounter.val ++ [flags] ++ le32 s.terminalId.val ++ le32 t ++ [sst, rst]

/-- The short record header of type 4 (R81, R141). -/
def headerShort (s : State) (rl : U16) : Bytes :=
  le16 rl ++ le16 s.recordCounter.val ++ [s.cfg.flagsT4, s.cfg.sstT4, s.cfg.rstT4]

/-- The record of types 1, 2 and 16 (R139, R140, R142). -/
def longRecord (s : State) (rt flags : Byte) (t : U32) (st : Byte) (body : Bytes) :
    Except ErrorCode Bytes := do
  let sb ← serviceBlock rt body
  let rl ← recordLength sb
  return headerLong s rl flags t st st ++ sb

/-- The record of type 4 (R139, R141, R142). -/
def shortRecord (s : State) (rt : Byte) (body : Bytes) : Except ErrorCode Bytes := do
  let sb ← serviceBlock rt body
  let rl ← recordLength sb
  return headerShort s rl ++ sb

/-- The record of APPEND.T1, or the error its encoding raises (R144). -/
def recordT1 (s : State) (now : Int) : Except ErrorCode Bytes := do
  let t ← ts s.cfg now
  longRecord s 0x01 recordFlags t 0x01 (body1 s)

/-- The record of APPEND.T2, or the error its encoding raises (R145). -/
def recordT2 (s : State) (now : Int) : Except ErrorCode Bytes := do
  let t ← ts s.cfg now
  longRecord s 0x02 recordFlags t 0x01 (body2 s)

/-- The record of APPEND.T4, or the error its encoding raises (R146). -/
def recordT4 (s : State) : Except ErrorCode Bytes := shortRecord s 0x04 (body4 s)

/-- The record of APPEND.T16 once all three optional operands are present (R147): the timestamp, then the
latitude, the longitude and the speed are checked (R210). -/
def recordT16Present (s : State) (now : Int) (lat lon spd : F64) : Except ErrorCode Bytes := do
  let t ← ts s.cfg now
  let la ← coord s.cfg lat f64Ninety (Config.latitudeOverflow s.freeIndex)
  let lo ← coord s.cfg lon f64OneEighty (Config.longitudeOverflow s.freeIndex)
  let sp ← speed s.cfg spd
  longRecord s 0x10 s.cfg.flagsT16 t 0x02 (body16 s t la lo (pflags lat lon) sp)

/-- The record of APPEND.T16, or the error its encoding raises (R147): an absent operand first (R204). -/
def recordT16 (s : State) (now : Int) (lat lon spd : Option F64) : Except ErrorCode Bytes :=
  match lat, lon, spd with
  | some la, some lo, some sp => recordT16Present s now la lo sp
  | _, _, _ => .error .missingField

/-- APPEND.T1 (R144). -/
def execAppendT1 (now : Int) (s : State) : StepResult := appendRecord (recordT1 s now) s

/-- APPEND.T2 (R145). -/
def execAppendT2 (now : Int) (s : State) : StepResult := appendRecord (recordT2 s now) s

/-- APPEND.T4 (R146): no operand is read. -/
def execAppendT4 (s : State) : StepResult := appendRecord (recordT4 s) s

/-- APPEND.T16 (R147). -/
def execAppendT16 (now : Int) (lat lon spd : Option F64) (s : State) : StepResult :=
  appendRecord (recordT16 s now lat lon spd) s

end Sys2Proof.Machine
end

