-- ==== Sys2Proof/Machine/Dispatch.lean ====
section
/-! DEFINITION. The meaning of every command of spec/30_encoding.md R71, one arm each. -/

namespace Sys2Proof.Machine

open Sys2Proof

def exec (i : Instr) (s : State) : Host.Outcome State Fault Refusal :=
  match i with
  | .sessionInit tid imei => Sys2Proof.Machine.execSessionInit tid imei s
  | .crc8 data => Sys2Proof.Machine.execCrc8 data s
  | .crc16 data => Sys2Proof.Machine.execCrc16 data s
  | .appendT1 now => Sys2Proof.Machine.execAppendT1 now s
  | .appendT2 now => Sys2Proof.Machine.execAppendT2 now s
  | .appendT4 => Sys2Proof.Machine.execAppendT4 s
  | .appendT16 now lat lon spd => Sys2Proof.Machine.execAppendT16 now lat lon spd s
  | .totalLength => Sys2Proof.Machine.execTotalLength s
  | .finalize => Sys2Proof.Machine.execFinalize s

end Sys2Proof.Machine
end

