-- ==== Sys2Proof/Machine/Step.lean ====
section
/-! DEFINITION. One step: the engine takes the oldest command the host has lined up, decodes it and
executes it (spec/60_exceptions.md R210, spec/70_reset_and_hazards.md R234). -/

namespace Sys2Proof.Machine

open Sys2Proof

/-- One step. With no command waiting the engine is idle and keeps all its state (R219, log 3). A command
that does not decode raises its error (R74). -/
def step (s : State) : Host.Outcome State Fault Refusal :=
  match s.input with
  | [] => .next s
  | c :: rest =>
    match decode c with
    | .ok i => exec i (s.take rest)
    | .error e => raiseError e (s.take rest)

/-- The state in which the host's next command is the one with command word `w` and every operand at
R77's default (log 1, log 24). -/
def State.withFetchWord (s : State) (nbits w : Nat) : State :=
  { s with input := commandOfWord (w % 2 ^ nbits) :: s.input }

end Sys2Proof.Machine
end

