-- ==== Sys2Proof/Safety.lean ====
section
/-! DEFINITION. The terms claims are stated in: the invariants of spec/10_state.md R29, what a framed record
is, and when two states agree on everything that is written. -/

namespace Sys2Proof

/-- The four APPEND commands (R71). -/
def Instr.isAppend : Instr → Bool
  | .appendT1 _ => true
  | .appendT2 _ => true
  | .appendT4 => true
  | .appendT16 _ _ _ _ => true
  | .sessionInit _ _ => false
  | .crc8 _ => false
  | .crc16 _ => false
  | .totalLength => false
  | .finalize => false

/-- The commands that need a session (R208). -/
def Instr.needsSession : Instr → Bool
  | .appendT1 _ => true
  | .appendT2 _ => true
  | .appendT4 => true
  | .appendT16 _ _ _ _ => true
  | .totalLength => true
  | .finalize => true
  | .sessionInit _ _ => false
  | .crc8 _ => false
  | .crc16 _ => false

namespace Machine

/-- R29, first sentence: with a session, the registers the commands read are written, and PENDING fits
its 65535 bytes. -/
def State.Inv (s : State) : Prop :=
  s.sessionValid = true →
    s.terminalId.written = true ∧ s.imei.written = true ∧ s.recordCounter.written = true ∧
    s.pending.written = true ∧ Pending.wf s.pending.val

/-- A framed record with record number `n` (R80, R81, R142): record_length, record_number, and as many
bytes in all as a 15-byte or a 7-byte header and a service block of record_length bytes. -/
def IsRecord (n : U16) (r : Bytes) : Prop :=
  ∃ (rl : U16) (rest : Bytes), r = le16 rl ++ le16 n ++ rest ∧
    (r.length = 15 + rl.toNat ∨ r.length = 7 + rl.toNat)

/-- Records with consecutive record numbers modulo 2^16, the first of them `n` (R29, R162). -/
def RecordsFrom : U16 → List Bytes → Prop
  | _, [] => True
  | n, r :: rs => IsRecord n r ∧ RecordsFrom (n + 1) rs

/-- R29, the rest: with a session, PENDING is the concatenation of framed records whose numbers are
consecutive modulo 2^16, the last of them RECORD_COUNTER - 1. -/
def State.Framed (s : State) : Prop :=
  s.sessionValid = true →
    ∃ (first : U16) (recs : List Bytes), RecordsFrom first recs ∧ s.pending.val = recs.flatten ∧
      s.recordCounter.val = first + BitVec.ofNat 16 recs.length

/-- Two values of one register that are both unwritten, or both written and equal. -/
def Reg.Agree {α : Type} (a b : Reg α) : Prop :=
  a.written = b.written ∧ (a.written = true → a.val = b.val)

/-- Two states that differ at most in what their unwritten registers hold (R35). -/
def State.Agree (s t : State) : Prop :=
  s.sessionValid = t.sessionValid ∧ s.terminalId.Agree t.terminalId ∧ s.imei.Agree t.imei ∧
  s.recordCounter.Agree t.recordCounter ∧ s.packetId.Agree t.packetId ∧ s.pending.Agree t.pending ∧
  s.cfg = t.cfg ∧ s.rom8 = t.rom8 ∧ s.rom16 = t.rom16 ∧ s.input = t.input ∧ s.output = t.output ∧
  s.freeIndex = t.freeIndex

end Machine

end Sys2Proof
end

