-- ==== Sys2Proof/Certificates/Slice0/Obligations.lean ====
section
/-! DEFINITION. The statements for the provers. Each docstring names the rule of spec/ it formalises; where a
clause is the model's choice, it names the log entry. -/

open Sys2Proof Sys2Proof.Machine

/-! ### The step, decoding and encoding -/

/-- R61, R74, R234: the oldest command is taken, decoded and executed, and nothing else happens around
`exec` but the move past it (log 1) and past the free values (log 7). -/
def Obligations.StepRunsTheDecodedCommand : Prop :=
  ∀ (s : State) (c : Command) (rest : List Command) (i : Instr),
    s.input = c :: rest → decode c = .ok i →
      step s = exec i { s with input := rest, freeIndex := s.freeIndex + 1 }

/-- R200, R203, R207: a command word that does not decode changes nothing; its response is its error. -/
def Obligations.RejectedWordOnlyAnswersItsError : Prop :=
  ∀ (s : State) (c : Command) (rest : List Command) (e : ErrorCode),
    s.input = c :: rest → decode c = .error e →
      step s = .next { s with
        input := rest, freeIndex := s.freeIndex + 1, output := s.output ++ [.err e] }

/-- R219: between commands the engine is idle and all state is kept. That the step answers the same state
is the model's choice (log 3). -/
def Obligations.EngineWithoutCommandKeepsAllState : Prop :=
  ∀ s : State, s.input = [] → step s = .next s

/-- R71: the opcode map, each word written out, with the operand fields of R72. -/
def Obligations.OpcodeMapWordsDecode : Prop :=
  ∀ c : Command,
    (c.cmd = 0b0000000100000000 → decode c = .ok (.sessionInit c.tid c.data)) ∧
    (c.cmd = 0b0000001000000000 → decode c = .ok (.crc8 c.data)) ∧
    (c.cmd = 0b0000001100000000 → decode c = .ok (.crc16 c.data)) ∧
    (c.cmd = 0b0000010000000001 → decode c = .ok (.appendT1 c.now.toInt)) ∧
    (c.cmd = 0b0000010000000010 → decode c = .ok (.appendT2 c.now.toInt)) ∧
    (c.cmd = 0b0000010000000100 → decode c = .ok .appendT4) ∧
    (c.cmd = 0b0000010000010000 → decode c = .ok (.appendT16 c.now.toInt c.lat c.lon c.spd)) ∧
    (c.cmd = 0b0000010100000000 → decode c = .ok .totalLength) ∧
    (c.cmd = 0b0000011000000000 → decode c = .ok .finalize)

/-- R74, R79, R203, R207: exactly the words of R71 decode; every other word raises the error R74
gives it. -/
def Obligations.EveryOtherWordIsRejectedByName : Prop :=
  ∀ c : Command,
    ((∃ i, decode c = .ok i) ↔
      c.cmd ∈ ([0x0100, 0x0200, 0x0300, 0x0401, 0x0402, 0x0404, 0x0410, 0x0500, 0x0600] : List U16)) ∧
    (decode c = .error .unsupportedRecordType ↔
      c.op = 0x04 ∧ c.sub ∉ ([0x01, 0x02, 0x04, 0x10] : List Byte)) ∧
    (decode c = .error .illegalCommand ↔
      c.op ∉ ([0x01, 0x02, 0x03, 0x04, 0x05, 0x06] : List Byte) ∨ (c.op ≠ 0x04 ∧ c.sub ≠ 0x00)) ∧
    ErrorCode.code .illegalCommand = 0x10 ∧ ErrorCode.code .unsupportedRecordType = 0x01

/-- R70, R71, R72, R74: decoding an encoded well-formed command gives it back, with every operand. -/
def Obligations.EncodeThenDecodeGivesTheCommand : Prop :=
  ∀ i : Instr, i.wellFormed = true → decode (encode i) = .ok i

/-- R70, R71, R72: a decoded command is well formed, and encoding it keeps the command word and the fields
the command reads. -/
def Obligations.DecodeThenEncodeKeepsWordAndFields : Prop :=
  ∀ (c : Command) (i : Instr), decode c = .ok i →
    i.wellFormed = true ∧ (encode i).cmd = c.cmd ∧ decode (encode i) = .ok i

/-- R72: two bundles with one command word that agree on the fields its command reads decode alike. -/
def Obligations.UnreadOperandFieldsAreIgnored : Prop :=
  ∀ c d : Command, c.cmd = d.cmd →
    (c.cmd = 0x0100 → c.tid = d.tid ∧ c.data = d.data) →
    (c.cmd = 0x0200 ∨ c.cmd = 0x0300 → c.data = d.data) →
    (c.cmd = 0x0401 ∨ c.cmd = 0x0402 → c.now = d.now) →
    (c.cmd = 0x0410 → c.now = d.now ∧ c.lat = d.lat ∧ c.lon = d.lon ∧ c.spd = d.spd) →
    decode c = decode d

/-- R78: `APPEND <n>` is the word 0x0400 | n; it decodes to the append of type n when n is 1, 2, 4 or 16
and raises UnsupportedRecordType for any other n. -/
def Obligations.AppendPseudoInstruction : Prop :=
  ∀ (n : Byte) (c : Command), c.cmd = appendWord n →
    decode c =
      if n = 1 then .ok (.appendT1 c.now.toInt)
      else if n = 2 then .ok (.appendT2 c.now.toInt)
      else if n = 4 then .ok .appendT4
      else if n = 16 then .ok (.appendT16 c.now.toInt c.lat c.lon c.spd)
      else .error .unsupportedRecordType

/-! ### Reset -/

/-- R230: after the reset event no session register is written, SESSION_VALID is 0, the configuration
registers and ROMs hold their parameters, no response has been produced, and any command is accepted:
it is answered once. -/
def Obligations.ResetLeavesNoSession : Prop :=
  ∀ (cfg : Cfg) (rom8 : Vector Byte 256) (rom16 : Vector U16 256) (c : Command),
    let s := State.powerOn cfg rom8 rom16
    s.sessionValid = false ∧ s.terminalId.written = false ∧ s.imei.written = false ∧
    s.recordCounter.written = false ∧ s.packetId.written = false ∧ s.pending.written = false ∧
    s.cfg = cfg ∧ s.rom8 = rom8 ∧ s.rom16 = rom16 ∧ s.output = [] ∧
    ∃ t r, step { s with input := [c] } = .next t ∧ t.output = [r]

/-- R6, R30 to R32: the reset state of the default instance holds the defaults of R6. The OPEN parameters
are opaque constants (log 10). -/
def Obligations.ResetHoldsTheDefaultParameters : Prop :=
  State.reset = State.powerOn State.reset.cfg State.reset.rom8 State.reset.rom16 ∧
  State.reset.rom8 = defaultTable8 ∧ State.reset.rom16 = defaultTable16 ∧
  State.reset.cfg.tzOffset = 10800 ∧ State.reset.cfg.msisdnFill = 0x30 ∧
  State.reset.cfg.round = .halfEven ∧ State.reset.cfg.arith = .binary64

/-! ### Responses and errors -/

/-- R73: each command answers exactly once, with a result of the kind its row gives or with an error. The
rest of the host's list and the free values are left to the step. -/
def Obligations.EveryCommandAnswersOnce : Prop :=
  ∀ (i : Instr) (s : State), ∃ t r,
    exec i s = .next t ∧ t.output = s.output ++ [r] ∧ t.input = s.input ∧
    t.freeIndex = s.freeIndex ∧
    ((∃ e, r = .err e) ∨
      match i with
      | .crc8 _ => ∃ v, r = .ok (.u8 v)
      | .crc16 _ => ∃ v, r = .ok (.u16 v)
      | .totalLength => ∃ v, r = .ok (.u16 v)
      | .finalize => ∃ v, r = .ok (.bytes v)
      | .sessionInit _ _ => r = .ok .none
      | .appendT1 _ => r = .ok .none
      | .appendT2 _ => r = .ok .none
      | .appendT4 => r = .ok .none
      | .appendT16 _ _ _ _ => r = .ok .none)

/-- R201, R211, R238: from every state, as many steps as there are commands use up the commands and add as
many responses; no run stops. The two lists are the model's (log 1, log 2). -/
def Obligations.RunAnswersEveryCommand : Prop :=
  ∀ s : State, ∃ t, core.run s.input.length s = .next t ∧ t.input = [] ∧
    ∃ rs : List Response, t.output = s.output ++ rs ∧ rs.length = s.input.length

/-- R73, R202: the numeric codes and the status byte. -/
def Obligations.StatusByteIsTheErrorCode : Prop :=
  (∀ r, (Response.ok r).status = 0x00) ∧ (∀ e, (Response.err e).status = e.code) ∧
  ErrorCode.code .unsupportedRecordType = 0x01 ∧ ErrorCode.code .missingField = 0x02 ∧
  ErrorCode.code .emptyBuffer = 0x03 ∧ ErrorCode.code .lengthOverflow = 0x04 ∧
  ErrorCode.code .illegalCommand = 0x10 ∧ ErrorCode.code .noSession = 0x11 ∧
  ErrorCode.code .fieldRange = 0x12 ∧
  ∀ e e' : ErrorCode, e.code = e'.code → e = e'

/-- R200: a step whose response is an error leaves every register exactly as it was. What else the conclusion
says is the model's own bookkeeping, no rule of the spec: the command leaves `input` (log 1), the response
joins `output` (log 2) and `freeIndex` goes up by one (log 7). -/
def Obligations.ErrorLeavesEveryRegister : Prop :=
  ∀ (s t : State) (c : Command) (rest : List Command) (e : ErrorCode),
    s.input = c :: rest → step s = .next t → t.output = s.output ++ [.err e] →
      t = { s with input := rest, freeIndex := s.freeIndex + 1, output := s.output ++ [.err e] }

/-- R208: without a session, APPEND, TOTAL_LENGTH and FINALIZE raise NoSession, and nothing else ever
does. -/
def Obligations.NoSessionGate : Prop :=
  ∀ (i : Instr) (s : State),
    (i.needsSession = true → s.sessionValid = false →
      exec i s = .next { s with output := s.output ++ [.err .noSession] }) ∧
    (i.needsSession = false ∨ s.sessionValid = true →
      exec i s ≠ .next { s with output := s.output ++ [.err .noSession] }) ∧
    ErrorCode.code .noSession = 0x11

/-- R23 to R28, R30 to R32: which registers each command may write. Every register not named for a command
keeps its value. -/
def Obligations.OnlyTheNamedRegistersAreWritten : Prop :=
  ∀ (i : Instr) (s t : State), exec i s = .next t →
    t.cfg = s.cfg ∧ t.rom8 = s.rom8 ∧ t.rom16 = s.rom16 ∧ t.input = s.input ∧
    t.freeIndex = s.freeIndex ∧
    ((∀ tid im, i ≠ .sessionInit tid im) →
      t.sessionValid = s.sessionValid ∧ t.terminalId = s.terminalId ∧ t.imei = s.imei) ∧
    ((∀ tid im, i ≠ .sessionInit tid im) → i.isAppend = false →
      t.recordCounter = s.recordCounter) ∧
    ((∀ tid im, i ≠ .sessionInit tid im) → i ≠ .finalize → t.packetId = s.packetId) ∧
    ((∀ tid im, i ≠ .sessionInit tid im) → i.isAppend = false → i ≠ .finalize →
      t.pending = s.pending ∧ ∀ off, t.pendingByte off = s.pendingByte off)

/-- R57, R160: an APPEND stores its record at the end of PENDING, from the offset `len(PENDING)` on. Every
byte below that offset, and every offset above the record, reads as before; a failed one stores
nothing. -/
def Obligations.AppendStoresOnlyBehindTheBuffer : Prop :=
  ∀ (i : Instr) (s t : State), i.isAppend = true → exec i s = .next t →
    (∀ off, off < s.pending.val.length ∨ t.pending.val.length ≤ off →
      t.pendingByte off = s.pendingByte off) ∧
    (t.output ≠ s.output ++ [.ok .none] → ∀ off, t.pendingByte off = s.pendingByte off)

/-! ### Session -/

/-- R100, R102: SESSION_INIT creates the session, or replaces the one there is, in every state; nothing
else is written. What PACKET_ID holds while unwritten is not said (log 6). -/
def Obligations.SessionInitCreatesOrReplacesTheSession : Prop :=
  (∀ (s : State) (tid : U32) (im : Bytes), ∃ t,
    exec (.sessionInit tid im) s = .next t ∧
    t.sessionValid = true ∧ t.terminalId = ⟨tid, true⟩ ∧ t.imei = ⟨im, true⟩ ∧
    t.recordCounter = ⟨1, true⟩ ∧ t.packetId.written = false ∧ t.pending = ⟨[], true⟩ ∧
    t.cfg = s.cfg ∧ t.rom8 = s.rom8 ∧ t.rom16 = s.rom16 ∧ t.input = s.input ∧
    t.output = s.output ++ [.ok .none] ∧ t.freeIndex = s.freeIndex) ∧
  ∀ c : Command, c.op = 0x01 → c.sub ≠ 0x00 → decode c = .error .illegalCommand

/-- R101: SESSION_INIT appends no record and consumes no record number: the first APPEND after it that
completes writes record number 1 and leaves the counter at 2. -/
def Obligations.FirstRecordOfASessionIsNumberOne : Prop :=
  ∀ (s t u : State) (tid : U32) (im : Bytes) (i : Instr), i.isAppend = true →
    exec (.sessionInit tid im) s = .next t → exec i t = .next u →
    u.output = t.output ++ [.ok .none] →
      t.pending.val = [] ∧ t.recordCounter.val = 1 ∧
      (u.pending.val.drop 2).take 2 = [0x01, 0x00] ∧ u.recordCounter.val = 2

/-! ### Checksum engines -/

/-- R114, R115: CRC8 completes in every state with the CRC-8 of its data, read through ROM8 byte 0 first,
and writes no register. -/
def Obligations.Crc8FoldsTheRomOverTheData : Prop :=
  (∀ (s : State) (data : Bytes),
    exec (.crc8 data) s = .next { s with
      output := s.output ++
        [.ok (.u8 (data.foldl (fun (acc b : Byte) => s.rom8[(acc ^^^ b).toNat]) 0xFF))] }) ∧
  ∀ c : Command, c.op = 0x02 → c.sub ≠ 0x00 → decode c = .error .illegalCommand

/-- R116, R117: CRC16 completes in every state with the CRC-16 of its data, read through ROM16 byte 0
first, and writes no register. -/
def Obligations.Crc16FoldsTheRomOverTheData : Prop :=
  (∀ (s : State) (data : Bytes),
    exec (.crc16 data) s = .next { s with
      output := s.output ++
        [.ok (.u16 (data.foldl
          (fun (acc : U16) (b : Byte) =>
            (acc <<< 8) ^^^ s.rom16[((acc >>> 8).setWidth 8 ^^^ b).toNat]) 0xFFFF))] }) ∧
  ∀ c : Command, c.op = 0x03 → c.sub ≠ 0x00 → decode c = .error .illegalCommand

/-- R110, R111, R112, R113: the listed default tables are the ones the generation rules give. The spec
supplies both from general knowledge (log 11). -/
def Obligations.DefaultRomsFollowTheirGenerationRules : Prop :=
  (∀ i : Byte, readRom8 defaultTable8 i = shiftSteps 0x31 8 i) ∧
  (∀ i : Byte, readRom16 defaultTable16 i = shiftSteps 0x1021 8 (i.setWidth 16 <<< 8))

/-- R118 (a), for the default table, which the spec supplies from general knowledge (log 11): the CRC8
command's result is the bitwise CRC of polynomial 0x31. -/
def Obligations.Crc8EqualsTheBitwiseCrc : Prop :=
  ∀ (s : State) (data : Bytes), s.rom8 = defaultTable8 →
    exec (.crc8 data) s = .next { s with
      output := s.output ++
        [.ok (.u8 (data.foldl (fun (acc b : Byte) => shiftSteps 0x31 8 (acc ^^^ b)) 0xFF))] }

/-- R118 (a), for the default table (log 11): the CRC16 command's result is the bitwise CRC of polynomial
0x1021, each byte XORed into bits 15:8. -/
def Obligations.Crc16EqualsTheBitwiseCrc : Prop :=
  ∀ (s : State) (data : Bytes), s.rom16 = defaultTable16 →
    exec (.crc16 data) s = .next { s with
      output := s.output ++
        [.ok (.u16 (data.foldl
          (fun (acc : U16) (b : Byte) => shiftSteps 0x1021 8 (acc ^^^ (b.setWidth 16 <<< 8)))
          0xFFFF))] }

/-- R118 (b), (c), for the default tables (log 11): the residue of data followed by its CRC, most
significant byte first, is zero. -/
def Obligations.CrcResidueIsZero : Prop :=
  ∀ data : Bytes,
    crc8 defaultTable8 (data ++ [crc8 defaultTable8 data]) = 0 ∧
    crc16 defaultTable16 (data ++ [(crc16 defaultTable16 data).extractLsb' 8 8,
      (crc16 defaultTable16 data).extractLsb' 0 8]) = 0

/-- R120, for the default table (log 11): a change confined to one byte changes the CRC-16. -/
def Obligations.OneChangedByteChangesTheCrc16 : Prop :=
  ∀ (front back : Bytes) (a b : Byte), a ≠ b →
    crc16 defaultTable16 (front ++ [a] ++ back) ≠ crc16 defaultTable16 (front ++ [b] ++ back)

/-! ### Serialisers and field encoders -/

/-- R10, R50: the serialisers emit the least significant byte first and lose no bit. -/
def Obligations.SerialisersAreLittleEndian : Prop :=
  (∀ v : U16, (le16 v).map BitVec.toNat = [v.toNat % 256, v.toNat / 256]) ∧
  (∀ v : U24, (le24 v).map BitVec.toNat = [v.toNat % 256, v.toNat / 256 % 256, v.toNat / 65536]) ∧
  (∀ v : U32, (le32 v).map BitVec.toNat =
    [v.toNat % 256, v.toNat / 256 % 256, v.toNat / 65536 % 256, v.toNat / 16777216])

/-- R130: the timestamp encoder, for every offset. -/
def Obligations.TimestampSubtractsTheOffset : Prop :=
  ∀ (cfg : Cfg) (now : Int),
    (0 ≤ now - cfg.tzOffset ∧ now - cfg.tzOffset ≤ 2 ^ 32 - 1 →
      ∃ t : U32, ts cfg now = .ok t ∧ (t.toNat : Int) = now - cfg.tzOffset) ∧
    (¬ (0 ≤ now - cfg.tzOffset ∧ now - cfg.tzOffset ≤ 2 ^ 32 - 1) →
      ts cfg now = .error .fieldRange)

/-- R14 (fl64), G6: the rounding of one operation. A finite result lies as near the exact value `num / den`
as any finite binary64 value does, a tie goes to the value whose last significand bit is 0, the sign is
kept, and the result is infinite exactly from the midpoint above the largest finite value on. -/
def Obligations.Fl64RoundsToTheNearestBinary64 : Prop :=
  ∀ (neg : Bool) (x : Frac), 0 < x.den →
    f64Sign (fl64 neg x) = neg ∧ f64IsNaN (fl64 neg x) = false ∧
    (f64IsFinite (fl64 neg x) = true ↔ x.num < (2 ^ 1024 - 2 ^ 970) * x.den) ∧
    (f64IsFinite (fl64 neg x) = true → ∀ c : F64, f64IsFinite c = true →
      let err := fun u : Nat => ((u * x.den : Nat) - (x.num * 2 ^ 1074 : Nat) : Int).natAbs
      err (f64Units (fl64 neg x)) ≤ err (f64Units c) ∧
      (err (f64Units (fl64 neg x)) = err (f64Units c) →
        f64Units (fl64 neg x) ≠ f64Units c → (fl64 neg x).getLsbD 0 = false))

/-- R14 (roundInt): `roundInt` maps a finite binary64 value to the nearest integer; by the default of
P_ROUND a tie goes to the even one (D17). -/
def Obligations.RoundIntTakesTheNearestInteger : Prop :=
  ∀ (rule : TieRule) (d : F64), f64IsFinite d = true →
    let units : Int := if f64Sign d then -(f64Units d : Int) else f64Units d
    let err : Nat := (f64RoundInt rule d * 2 ^ 1074 - units).natAbs
    2 * err ≤ 2 ^ 1074 ∧
    (2 * err = 2 ^ 1074 → rule = .halfEven → f64RoundInt rule d % 2 = 0)

/-- R131: the coordinate encoder with the binary64 evaluation of R6: divide, multiply, round, truncate to
32 bits; a non-finite operand is FieldRange. Where the product is infinite R131 gives no value, and
this statement says none (log 8). -/
def Obligations.CoordinateDividesThenMultiplies : Prop :=
  ∀ (cfg : Cfg) (d div : F64) (free : U32), cfg.arith = .binary64 →
    (f64IsFinite d = false → coord cfg d div free = .error .fieldRange) ∧
    (f64IsFinite d = true → f64IsFinite (f64Mul (f64Div (f64Abs d) div) f64MaxU32) = true →
      ∃ v : U32, coord cfg d div free = .ok v ∧
        (v.toNat : Int) = f64RoundInt cfg.round (f64Mul (f64Div (f64Abs d) div) f64MaxU32) % 2 ^ 32)

/-- R131, which marks it as derived: within the range of its divisor a coordinate is not truncated, for
every tie rule and both evaluations (log 12, log 13). -/
def Obligations.CoordinateInRangeIsNotTruncated : Prop :=
  ∀ (cfg : Cfg) (d div : F64), div = f64Ninety ∨ div = f64OneEighty → f64IsFinite d = true →
    f64Units d ≤ f64Units div →
      ∃ n, coordMagnitude cfg d div = some n ∧ 0 ≤ n ∧ n ≤ 4294967295 ∧
        ∀ free, coord cfg d div free = .ok (BitVec.ofInt 32 n)

/-- R131, R147: the sign of a coordinate is not in its field. -/
def Obligations.CoordinateIgnoresTheSign : Prop :=
  ∀ (cfg : Cfg) (d div : F64) (free : U32),
    coord cfg d div free = coord cfg (f64Abs d) div free

/-- R131, R147 and the vectors V-CO-5, V-CO-9, V-CO-10, V-CO-12: corner values under the defaults of
P_ROUND and P_ARITH. -/
def Obligations.CoordinateCornerValues : Prop :=
  ∀ (cfg : Cfg) (free : U32), cfg.round = .halfEven → cfg.arith = .binary64 →
    coord cfg 0x4056800000000000 f64Ninety free = .ok 0xFFFFFFFF ∧
    coord cfg 0x8000000000000000 f64Ninety free = .ok 0x00000000 ∧
    coord cfg 0x4046800000000000 f64Ninety free = .ok 0x80000000 ∧
    coord cfg 0x4056A00000000000 f64Ninety free = .ok 0x016C16C0

/-- R133, R209: the speed encoder with the binary64 evaluation of R6. That an infinite product is
FieldRange is DEDUCED (log 9). -/
def Obligations.SpeedIsTenthsInRange : Prop :=
  ∀ (cfg : Cfg) (v : F64), cfg.arith = .binary64 →
    let p := f64Mul v f64Ten
    (f64IsFinite v = true → f64IsFinite p = true → 0 ≤ f64RoundInt cfg.round p →
      f64RoundInt cfg.round p ≤ 65535 →
        ∃ n : U16, speed cfg v = .ok n ∧ (n.toNat : Int) = f64RoundInt cfg.round p) ∧
    (f64IsFinite v = false ∨ f64IsFinite p = false ∨ f64RoundInt cfg.round p < 0 ∨
        65535 < f64RoundInt cfg.round p →
      speed cfg v = .error .fieldRange)

/-- R86, R132, R134: the position flags, bit by bit. -/
def Obligations.PositionFlagsCarryTheSigns : Prop :=
  ∀ lat lon : F64,
    (pflags lat lon).getLsbD 0 = true ∧ (pflags lat lon).getLsbD 1 = f64IsNegative lon ∧
    (pflags lat lon).getLsbD 2 = f64IsNegative lat ∧ (pflags lat lon).extractLsb' 3 5 = 0

/-- R132, R14: a finite value is negative exactly when its sign bit is set and it is not a zero; a NaN is
never negative; minus infinity is. -/
def Obligations.NegativeMeansBelowZero : Prop :=
  (∀ d : F64, f64IsFinite d = true →
    (f64IsNegative d = true ↔ f64Sign d = true ∧ f64Units d ≠ 0)) ∧
  (∀ d : F64, f64IsNaN d = true → f64IsNegative d = false) ∧
  f64IsNegative 0xFFF0000000000000 = true ∧ f64IsNegative 0x7FF0000000000000 = false

/-! ### The APPEND commands -/

/-- R144: APPEND.T1, its record byte for byte and its errors. Nothing else of the state changes. -/
def Obligations.AppendT1FramesTheTerminalIdentity : Prop :=
  ∀ (s : State) (now : Int),
    let t := now - s.cfg.tzOffset
    let size := s.pending.val.length + (57 + s.imei.val.length)
    let record := le16 (BitVec.ofNat 16 (42 + s.imei.val.length)) ++ le16 s.recordCounter.val ++
      [0x05] ++ le32 s.terminalId.val ++ le32 (BitVec.ofInt 32 t) ++ [0x01, 0x01] ++
      [0x01] ++ le16 (BitVec.ofNat 16 (39 + s.imei.val.length)) ++
      le32 s.terminalId.val ++ [0x9E] ++ s.imei.val ++ List.replicate 16 0x30 ++
      [0x72, 0x75, 0x73] ++ List.replicate 15 s.cfg.msisdnFill
    (s.sessionValid = true → 0 ≤ t → t ≤ 2 ^ 32 - 1 → size ≤ 65535 →
      exec (.appendT1 now) s = .next { s with
        pending := ⟨s.pending.val ++ record, true⟩
        recordCounter := ⟨s.recordCounter.val + 1, true⟩
        output := s.output ++ [.ok .none] }) ∧
    (s.sessionValid = false →
      exec (.appendT1 now) s = .next { s with output := s.output ++ [.err .noSession] }) ∧
    (s.sessionValid = true → t < 0 ∨ 2 ^ 32 - 1 < t →
      exec (.appendT1 now) s = .next { s with output := s.output ++ [.err .fieldRange] }) ∧
    (s.sessionValid = true → 0 ≤ t → t ≤ 2 ^ 32 - 1 → 65535 < size →
      exec (.appendT1 now) s = .next { s with output := s.output ++ [.err .lengthOverflow] })

/-- R145: APPEND.T2, its record byte for byte and its errors. Nothing else of the state changes. -/
def Obligations.AppendT2FramesTheModuleData : Prop :=
  ∀ (s : State) (now : Int),
    let t := now - s.cfg.tzOffset
    let record := [0x0B, 0x00] ++ le16 s.recordCounter.val ++ [0x05] ++ le32 s.terminalId.val ++
      le32 (BitVec.ofInt 32 t) ++ [0x01, 0x01] ++ [0x02, 0x08, 0x00] ++ s.cfg.moduleTemplate.toList
    (s.sessionValid = true → 0 ≤ t → t ≤ 2 ^ 32 - 1 → s.pending.val.length ≤ 65509 →
      exec (.appendT2 now) s = .next { s with
        pending := ⟨s.pending.val ++ record, true⟩
        recordCounter := ⟨s.recordCounter.val + 1, true⟩
        output := s.output ++ [.ok .none] }) ∧
    (s.sessionValid = false →
      exec (.appendT2 now) s = .next { s with output := s.output ++ [.err .noSession] }) ∧
    (s.sessionValid = true → t < 0 ∨ 2 ^ 32 - 1 < t →
      exec (.appendT2 now) s = .next { s with output := s.output ++ [.err .fieldRange] }) ∧
    (s.sessionValid = true → 0 ≤ t → t ≤ 2 ^ 32 - 1 → 65509 < s.pending.val.length →
      exec (.appendT2 now) s = .next { s with output := s.output ++ [.err .lengthOverflow] })

/-- R146: APPEND.T4, its record byte for byte and its errors. Nothing else of the state changes. -/
def Obligations.AppendT4FramesTheServiceIdentity : Prop :=
  ∀ s : State,
    let size := s.pending.val.length + (17 + s.imei.val.length)
    let record := le16 (BitVec.ofNat 16 (10 + s.imei.val.length)) ++ le16 s.recordCounter.val ++
      [s.cfg.flagsT4, s.cfg.sstT4, s.cfg.rstT4] ++
      [0x04] ++ le16 (BitVec.ofNat 16 (7 + s.imei.val.length)) ++
      [0x02, 0x02] ++ le32 s.terminalId.val ++ [0x02] ++ s.imei.val
    (s.sessionValid = true → size ≤ 65535 →
      exec .appendT4 s = .next { s with
        pending := ⟨s.pending.val ++ record, true⟩
        recordCounter := ⟨s.recordCounter.val + 1, true⟩
        output := s.output ++ [.ok .none] }) ∧
    (s.sessionValid = false →
      exec .appendT4 s = .next { s with output := s.output ++ [.err .noSession] }) ∧
    (s.sessionValid = true → 65535 < size →
      exec .appendT4 s = .next { s with output := s.output ++ [.err .lengthOverflow] })

/-- R147: APPEND.T16 with its three operands present and in range, its record byte for byte. A coordinate
whose product is infinite has a free value (log 8). Nothing else of the state changes. -/
def Obligations.AppendT16FramesThePosition : Prop :=
  ∀ (s : State) (now : Int) (lat lon spd : F64) (sp : Int),
    let t := now - s.cfg.tzOffset
    let la := (coordMagnitude s.cfg lat f64Ninety).elim
      (Config.latitudeOverflow s.freeIndex) (BitVec.ofInt 32)
    let lo := (coordMagnitude s.cfg lon f64OneEighty).elim
      (Config.longitudeOverflow s.freeIndex) (BitVec.ofInt 32)
    let record := [0x18, 0x00] ++ le16 s.recordCounter.val ++ [s.cfg.flagsT16] ++
      le32 s.terminalId.val ++ le32 (BitVec.ofInt 32 t) ++ [0x02, 0x02] ++ [0x10, 0x15, 0x00] ++
      le32 (BitVec.ofInt 32 t) ++ le32 la ++ le32 lo ++ [pflags lat lon] ++
      le16 (BitVec.ofInt 16 sp) ++ [s.cfg.direction] ++ le24 s.cfg.odometer ++
      [s.cfg.digitalInputs, s.cfg.sourceByte]
    s.sessionValid = true → 0 ≤ t → t ≤ 2 ^ 32 - 1 →
    f64IsFinite lat = true → f64IsFinite lon = true → f64IsFinite spd = true →
    speedTenths s.cfg spd = some sp → 0 ≤ sp → sp ≤ 65535 → s.pending.val.length ≤ 65496 →
      exec (.appendT16 now (some lat) (some lon) (some spd)) s = .next { s with
        pending := ⟨s.pending.val ++ record, true⟩
        recordCounter := ⟨s.recordCounter.val + 1, true⟩
        output := s.output ++ [.ok .none] }

/-- R147, R204, R209, R210: what APPEND.T16 answers instead: the first error of NoSession, MissingField,
FieldRange, LengthOverflow, with no register changed. -/
def Obligations.AppendT16ReportsTheFirstError : Prop :=
  ∀ (s : State) (now : Int) (lat lon spd : Option F64),
    let bad := fun e : ErrorCode => exec (.appendT16 now lat lon spd) s =
      .next { s with output := s.output ++ [.err e] }
    let t := now - s.cfg.tzOffset
    let inRange := 0 ≤ t ∧ t ≤ 2 ^ 32 - 1 ∧ (∀ d, lat = some d → f64IsFinite d = true) ∧
      (∀ d, lon = some d → f64IsFinite d = true) ∧
      (∀ v, spd = some v → f64IsFinite v = true ∧
        ∃ n, speedTenths s.cfg v = some n ∧ 0 ≤ n ∧ n ≤ 65535)
    let missing := lat = none ∨ lon = none ∨ spd = none
    (s.sessionValid = false → bad .noSession) ∧
    (s.sessionValid = true → missing → bad .missingField) ∧
    (s.sessionValid = true → ¬ missing → ¬ inRange → bad .fieldRange) ∧
    (s.sessionValid = true → ¬ missing → inRange → 65496 < s.pending.val.length →
      bad .lengthOverflow)

/-- R87: the length of the record each APPEND that completes adds. -/
def Obligations.RecordSizes : Prop :=
  ∀ (i : Instr) (s t : State), i.isAppend = true → exec i s = .next t →
    t.output = s.output ++ [.ok .none] →
      t.pending.val.length = s.pending.val.length +
        match i with
        | .appendT1 _ => 57 + s.imei.val.length
        | .appendT2 _ => 26
        | .appendT4 => 17 + s.imei.val.length
        | .appendT16 _ _ _ _ => 39
        | .sessionInit _ _ => 0
        | .crc8 _ => 0
        | .crc16 _ => 0
        | .totalLength => 0
        | .finalize => 0

/-- R160, R142: an APPEND that completes adds one framed record whose number is the counter before it, and
the counter goes up by one modulo 2^16. -/
def Obligations.AppendNumbersItsRecordAndCountsUp : Prop :=
  ∀ (i : Instr) (s t : State), i.isAppend = true → exec i s = .next t →
    t.output = s.output ++ [.ok .none] →
      ∃ record, t.pending = ⟨s.pending.val ++ record, true⟩ ∧
        IsRecord s.recordCounter.val record ∧
        t.recordCounter.written = true ∧
        t.recordCounter.val.toNat = (s.recordCounter.val.toNat + 1) % 2 ^ 16

/-! ### The accumulator and the packet -/

/-- R161: TOTAL_LENGTH answers the length of PENDING and writes nothing; its check and its gate. -/
def Obligations.TotalLengthAnswersTheByteCount : Prop :=
  (∀ s : State,
    (s.sessionValid = true → s.pending.val.length ≤ 65535 →
      ∃ n : U16, n.toNat = s.pending.val.length ∧
        exec .totalLength s = .next { s with output := s.output ++ [.ok (.u16 n)] }) ∧
    (s.sessionValid = true → 65535 < s.pending.val.length →
      exec .totalLength s = .next { s with output := s.output ++ [.err .lengthOverflow] }) ∧
    (s.sessionValid = false →
      exec .totalLength s = .next { s with output := s.output ++ [.err .noSession] })) ∧
  ∀ c : Command, c.op = 0x05 → c.sub ≠ 0x00 → decode c = .error .illegalCommand

/-- R84, R85, R170 to R173: FINALIZE answers the packet, byte for byte, writes PACKET_ID with the counter,
empties PENDING, and writes nothing else; its errors. -/
def Obligations.FinalizeEmitsThePacket : Prop :=
  (∀ s : State,
    let recs := s.pending.val
    let header := [0x01, 0x00, 0x00, 0x0B, 0x00] ++ le16 (BitVec.ofNat 16 recs.length) ++
      le16 s.recordCounter.val ++ [0x01]
    (s.sessionValid = true → 0 < recs.length →
      exec .finalize s = .next { s with
        packetId := ⟨s.recordCounter.val, true⟩
        pending := ⟨[], true⟩
        output := s.output ++ [.ok (.bytes (header ++ [crc8 s.rom8 header] ++ recs ++
          le16 (crc16 s.rom16 recs)))] }) ∧
    (s.sessionValid = true → recs.length = 0 →
      exec .finalize s = .next { s with output := s.output ++ [.err .emptyBuffer] }) ∧
    (s.sessionValid = false →
      exec .finalize s = .next { s with output := s.output ++ [.err .noSession] })) ∧
  ∀ c : Command, c.op = 0x06 → c.sub ≠ 0x00 → decode c = .error .illegalCommand

/-- R173, S6: a second FINALIZE with no APPEND in between raises EmptyBuffer and changes nothing. -/
def Obligations.SecondFinalizeFindsAnEmptyBuffer : Prop :=
  ∀ (s t : State) (pkt : Bytes), exec .finalize s = .next t →
    t.output = s.output ++ [.ok (.bytes pkt)] →
      exec .finalize t = .next { t with output := t.output ++ [.err .emptyBuffer] }

/-- R174, which the spec marks as derived: what a host reads back from a packet. The premise `Inv` rules
out states with more than 65535 pending bytes, which no run reaches. -/
def Obligations.PacketFramingReadsBack : Prop :=
  ∀ (s t : State) (pkt : Bytes), s.Inv → exec .finalize s = .next t →
    t.output = s.output ++ [.ok (.bytes pkt)] →
      pkt.length = 13 + s.pending.val.length ∧
      pkt[3]? = some 0x0B ∧
      ((pkt.drop 5).take 2).map BitVec.toNat =
        [s.pending.val.length % 256, s.pending.val.length / 256] ∧
      pkt[10]? = some (crc8 s.rom8 (pkt.take 10)) ∧
      (pkt.drop 11).take s.pending.val.length = s.pending.val ∧
      pkt.drop (11 + s.pending.val.length) = le16 (crc16 s.rom16 s.pending.val)

/-! ### Invariants and whole-machine rules -/

/-- R29, first sentence: every step keeps it. -/
def Obligations.EveryStepKeepsSessionRegistersWritten : Prop :=
  ∀ s t : State, s.Inv → step s = .next t → t.Inv

/-- R29, R230: it holds after reset, for every parameters. -/
def Obligations.SessionRegistersWrittenHoldsAtReset : Prop :=
  State.reset.Inv ∧ ∀ cfg rom8 rom16, (State.powerOn cfg rom8 rom16).Inv

/-- R29, R162: every step keeps PENDING a concatenation of framed records with consecutive numbers, the
last of them the counter minus one. -/
def Obligations.EveryStepKeepsRecordsConsecutive : Prop :=
  ∀ s t : State, s.Framed → step s = .next t → t.Framed

/-- R29, R230: it holds after reset, for every parameters. -/
def Obligations.RecordsConsecutiveHoldsAtReset : Prop :=
  State.reset.Framed ∧ ∀ cfg rom8 rom16, (State.powerOn cfg rom8 rom16).Framed

/-- R30, R31, R32, R237: no step, whatever the host sends, changes a configuration register or a ROM
entry. -/
def Obligations.NoStepChangesConfigurationOrRoms : Prop :=
  ∀ s t : State, step s = .next t → t.cfg = s.cfg ∧ t.rom8 = s.rom8 ∧ t.rom16 = s.rom16

/-- R35, U13: no command reads an unwritten register. Two states that agree on everything written take
steps with the same response into states that agree again. -/
def Obligations.NoStepReadsAnUnwrittenRegister : Prop :=
  ∀ s t : State, s.Inv → s.Agree t →
    ∃ s' t', step s = .next s' ∧ step t = .next t' ∧ s'.Agree t'
end

