-- ==== Sys2Proof/Laws/Binary64.lean ====
section
/-! SUPPORT. What the binary64 rounding does, said once: the fields of a rounded value, the integer nearest a
fraction, and the grid a rounded value lies on. -/

namespace Sys2Proof.Machine

open Sys2Proof

theorem roundBits_le (x : Frac) : roundBits x ≤ 2047 * 2 ^ 52 := Nat.min_le_right _ _

theorem fl64_toNat (neg : Bool) (x : Frac) :
    (fl64 neg x).toNat = (if neg then 2 ^ 63 else 0) + roundBits x := by
  have : roundBits x ≤ 2047 * 2 ^ 52 := roundBits_le x
  unfold fl64
  rw [BitVec.toNat_ofNat]
  cases neg <;> simp <;> omega

theorem exponent_of_bits (b : Nat) (h : b ≤ 2047 * 2 ^ 52) : b / 2 ^ 52 % 2 ^ 11 = b / 2 ^ 52 :=
  Nat.mod_eq_of_lt (by omega)

theorem exponent_of_signed_bits (b : Nat) (h : b ≤ 2047 * 2 ^ 52) :
    (2 ^ 63 + b) / 2 ^ 52 % 2 ^ 11 = b / 2 ^ 52 := by omega

theorem fraction_of_signed_bits (b : Nat) : (2 ^ 63 + b) % 2 ^ 52 = b % 2 ^ 52 := by omega

theorem fl64_exp (neg : Bool) (x : Frac) : f64Exp (fl64 neg x) = roundBits x / 2 ^ 52 := by
  have h := roundBits_le x
  rw [f64Exp, BitVec.extractLsb'_toNat, fl64_toNat, Nat.shiftRight_eq_div_pow]
  cases neg
  · rw [if_neg Bool.false_ne_true, Nat.zero_add]; exact exponent_of_bits _ h
  · rw [if_pos rfl]; exact exponent_of_signed_bits _ h

theorem fl64_fraction (neg : Bool) (x : Frac) : f64Fraction (fl64 neg x) = roundBits x % 2 ^ 52 := by
  rw [f64Fraction, BitVec.extractLsb'_toNat, fl64_toNat, Nat.shiftRight_zero]
  cases neg
  · rw [if_neg Bool.false_ne_true, Nat.zero_add]
  · rw [if_pos rfl]; exact fraction_of_signed_bits _

/-- A rounded value keeps the sign it is given. -/
theorem fl64_sign (neg : Bool) (x : Frac) : f64Sign (fl64 neg x) = neg := by
  have := roundBits_le x
  simp only [f64Sign, BitVec.getLsbD, fl64_toNat, Nat.testBit_eq_decide_div_mod_eq]
  generalize roundBits x = B at *
  cases neg <;> simp <;> omega

/-- The integer nearest a fraction, ties to even, by cross-multiplication. -/
theorem nearest_halfEven (neg : Bool) (x : Frac) (hd : 0 < x.den) :
    ∃ m, nearest .halfEven neg x = m ∧ 2 * (m * x.den) ≤ 2 * x.num + x.den ∧
      2 * x.num ≤ 2 * (m * x.den) + x.den ∧
      (2 * (m * x.den) = 2 * x.num + x.den ∨ 2 * x.num = 2 * (m * x.den) + x.den → m % 2 = 0) := by
  have h := Nat.div_add_mod x.num x.den
  have hr := Nat.mod_lt x.num hd
  unfold nearest
  simp only
  generalize x.num / x.den = q at *
  generalize x.num % x.den = r at *
  have e1 : (q + 1) * x.den = q * x.den + x.den := by ring
  rw [Nat.mul_comm x.den q] at h
  split
  · exact ⟨_, rfl, by omega, by omega, by omega⟩
  · split
    · exact ⟨_, rfl, by omega, by omega, by omega⟩
    · split
      · exact ⟨_, rfl, by omega, by omega, by omega⟩
      · exact ⟨_, rfl, by omega, by omega, by omega⟩

/-- A fraction at most a whole number rounds to at most that number, by every tie rule. -/
theorem nearest_le (rule : TieRule) (neg : Bool) (x : Frac) (b : Nat) (hd : 0 < x.den)
    (h : x.num ≤ b * x.den) : nearest rule neg x ≤ b := by
  have h1 := Nat.div_add_mod x.num x.den
  have hq : x.num / x.den ≤ b := Nat.div_le_of_le_mul (by rwa [Nat.mul_comm])
  have hr : x.num % x.den ≠ 0 → x.num / x.den < b := by
    intro h0
    by_contra hc
    have : x.num / x.den = b := by omega
    rw [this, Nat.mul_comm] at h1
    omega
  unfold nearest
  simp only
  generalize x.num / x.den = q at *
  generalize x.num % x.den = r at *
  split
  · exact hq
  · have := hr (by omega)
    split
    · omega
    · split <;> (try split) <;> omega

/-- What `roundBits` answers: a significand `m` at exponent step `k`, nearest to the exact value in units of
2^k, with the exact value inside the binade of `k`. -/
theorem roundBits_shape (x : Frac) (hd : 0 < x.den) :
    ∃ k m, roundBits x = min (k * 2 ^ 52 + m) (2047 * 2 ^ 52) ∧ m ≤ 2 ^ 53 ∧
      (k = 0 ∨ 2 ^ 52 ≤ m ∧ 2 ^ (52 + k) * x.den ≤ x.num * 2 ^ 1074) ∧
      x.num * 2 ^ 1074 < 2 ^ (53 + k) * x.den ∧
      2 * (m * (x.den * 2 ^ k)) ≤ 2 * (x.num * 2 ^ 1074) + x.den * 2 ^ k ∧
      2 * (x.num * 2 ^ 1074) ≤ 2 * (m * (x.den * 2 ^ k)) + x.den * 2 ^ k ∧
      (2 * (m * (x.den * 2 ^ k)) = 2 * (x.num * 2 ^ 1074) + x.den * 2 ^ k ∨
        2 * (x.num * 2 ^ 1074) = 2 * (m * (x.den * 2 ^ k)) + x.den * 2 ^ k → m % 2 = 0) := by
  unfold roundBits
  simp only
  generalize x.num * 2 ^ 1074 = N
  generalize hU : N / x.den = U
  generalize hk : Nat.log2 U - 52 = k
  have hX : 0 < x.den * 2 ^ k := by positivity
  obtain ⟨m, hm, h1, h2, h3⟩ := nearest_halfEven false ⟨N, x.den * 2 ^ k⟩ hX
  rw [hm]
  simp only at h1 h2 h3
  have hUN : U * x.den ≤ N := by rw [← hU]; exact Nat.div_mul_le_self _ _
  have hNU : N < (U + 1) * x.den := by
    rw [← hU, Nat.mul_comm]
    exact Nat.lt_mul_div_succ N hd
  have hup : U < 2 ^ (53 + k) := by
    rcases Nat.eq_zero_or_pos U with rfl | hp
    · positivity
    · calc U < 2 ^ (Nat.log2 U + 1) := Nat.lt_log2_self
        _ ≤ 2 ^ (53 + k) := Nat.pow_le_pow_right (by norm_num) (by omega)
  have hNlt : N < 2 ^ (53 + k) * x.den := lt_of_lt_of_le hNU (Nat.mul_le_mul_right _ hup)
  have hlo : k = 0 ∨ 2 ^ (52 + k) * x.den ≤ N := by
    rcases Nat.eq_zero_or_pos k with h | h
    · exact .inl h
    · have hU0 : U ≠ 0 := by rintro rfl; simp at hk; omega
      have hlog : 2 ^ Nat.log2 U ≤ U := Nat.log2_self_le hU0
      rw [show Nat.log2 U = 52 + k by omega] at hlog
      exact .inr (le_trans (Nat.mul_le_mul_right _ hlog) hUN)
  have e53 : 2 ^ (53 + k) * x.den = 2 ^ 53 * (x.den * 2 ^ k) := by rw [pow_add]; ring
  have e52 : 2 ^ (52 + k) * x.den = 2 ^ 52 * (x.den * 2 ^ k) := by rw [pow_add]; ring
  refine ⟨k, m, rfl, ?_, hlo.imp id fun h => ⟨?_, h⟩, hNlt, h1, h2, h3⟩
  · by_contra hc
    have : (2 ^ 53 + 1) * (x.den * 2 ^ k) ≤ m * (x.den * 2 ^ k) := Nat.mul_le_mul_right _ (by omega)
    rw [e53] at hNlt
    rw [Nat.add_mul, Nat.one_mul] at this
    omega
  · by_contra hc
    have : (m + 1) * (x.den * 2 ^ k) ≤ 2 ^ 52 * (x.den * 2 ^ k) := Nat.mul_le_mul_right _ (by omega)
    rw [e52] at h
    rw [Nat.add_mul, Nat.one_mul] at this
    omega

/-- The magnitude of a rounded value whose bits are exponent step `k` and significand `m`. -/
theorem fl64_units (neg : Bool) (x : Frac) (k m : Nat) (h : roundBits x = k * 2 ^ 52 + m)
    (hm : m ≤ 2 ^ 53) (hk : k = 0 ∨ 2 ^ 52 ≤ m) : f64Units (fl64 neg x) = m * 2 ^ k := by
  unfold f64Units
  rw [fl64_exp, fl64_fraction, h]
  rcases lt_or_ge m (2 ^ 52) with h1 | h1
  · obtain rfl : k = 0 := by omega
    rw [Nat.zero_mul, Nat.zero_add, if_pos (Nat.div_eq_of_lt h1), Nat.mod_eq_of_lt h1, Nat.pow_zero,
      Nat.mul_one]
  · rcases Nat.lt_or_ge m (2 ^ 53) with h2 | h2
    · have e1 : (k * 2 ^ 52 + m) / 2 ^ 52 = k + 1 := by omega
      have e2 : (k * 2 ^ 52 + m) % 2 ^ 52 = m - 2 ^ 52 := by omega
      rw [e1, e2, if_neg (Nat.succ_ne_zero k), Nat.shiftLeft_eq, Nat.add_sub_cancel,
        Nat.add_sub_cancel' h1]
    · obtain rfl : m = 2 ^ 53 := by omega
      have e1 : (k * 2 ^ 52 + 2 ^ 53) / 2 ^ 52 = k + 2 := by omega
      have e2 : (k * 2 ^ 52 + 2 ^ 53) % 2 ^ 52 = 0 := by omega
      rw [e1, e2, if_neg (Nat.succ_ne_zero (k + 1)), Nat.shiftLeft_eq,
        show k + 2 - 1 = k + 1 by omega, pow_succ]
      ring

/-- Every magnitude is a multiple of 2^k or lies below the binade of exponent step `k`. -/
theorem f64Units_grid (c : F64) (k : Nat) :
    (∃ j, f64Units c = j * 2 ^ k) ∨ f64Units c < 2 ^ (52 + k) := by
  have hf : f64Fraction c < 2 ^ 52 := (c.extractLsb' 0 52).isLt
  unfold f64Units
  split
  · exact .inr (lt_of_lt_of_le hf (Nat.pow_le_pow_right (by norm_num) (by omega)))
  · rw [Nat.shiftLeft_eq]
    rcases Nat.lt_or_ge (f64Exp c - 1) k with h | h
    · right
      calc _ < 2 ^ 53 * 2 ^ (f64Exp c - 1) := Nat.mul_lt_mul_of_pos_right (by omega) (by positivity)
        _ = 2 ^ (53 + (f64Exp c - 1)) := by rw [pow_add]
        _ ≤ _ := Nat.pow_le_pow_right (by norm_num) (by omega)
    · refine .inl ⟨(2 ^ 52 + f64Fraction c) * 2 ^ (f64Exp c - 1 - k), ?_⟩
      rw [mul_assoc, ← pow_add]
      congr 2
      omega

theorem f64Abs_exp (d : F64) : f64Exp (f64Abs d) = f64Exp d := by
  unfold f64Exp f64Abs
  congr 1
  ext i hi
  simp only [BitVec.getElem_extractLsb', BitVec.getLsbD_and]
  interval_cases i <;> simp

theorem f64Abs_fraction (d : F64) : f64Fraction (f64Abs d) = f64Fraction d := by
  unfold f64Fraction f64Abs
  congr 1
  ext i hi
  simp only [BitVec.getElem_extractLsb', BitVec.getLsbD_and]
  interval_cases i <;> simp

/-- `abs` keeps the magnitude. -/
theorem f64Abs_units (d : F64) : f64Units (f64Abs d) = f64Units d := by
  simp only [f64Units, f64Abs_exp, f64Abs_fraction]

/-- `abs` clears the sign. -/
theorem f64Abs_sign (d : F64) : f64Sign (f64Abs d) = false := by
  simp [f64Sign, f64Abs]

end Sys2Proof.Machine
end

