-- ==== Sys2Proof/Laws/State.lean ====
section
/-! SUPPORT. One lemma per field and update of the state. -/

namespace Sys2Proof.Machine

open Sys2Proof

@[simp] theorem State.take_sessionValid (s : State) (rest : List Command) :
    (s.take rest).sessionValid = s.sessionValid := rfl

@[simp] theorem State.take_terminalId (s : State) (rest : List Command) :
    (s.take rest).terminalId = s.terminalId := rfl

@[simp] theorem State.take_imei (s : State) (rest : List Command) :
    (s.take rest).imei = s.imei := rfl

@[simp] theorem State.take_recordCounter (s : State) (rest : List Command) :
    (s.take rest).recordCounter = s.recordCounter := rfl

@[simp] theorem State.take_packetId (s : State) (rest : List Command) :
    (s.take rest).packetId = s.packetId := rfl

@[simp] theorem State.take_pending (s : State) (rest : List Command) :
    (s.take rest).pending = s.pending := rfl

@[simp] theorem State.take_cfg (s : State) (rest : List Command) :
    (s.take rest).cfg = s.cfg := rfl

@[simp] theorem State.take_rom8 (s : State) (rest : List Command) :
    (s.take rest).rom8 = s.rom8 := rfl

@[simp] theorem State.take_rom16 (s : State) (rest : List Command) :
    (s.take rest).rom16 = s.rom16 := rfl

@[simp] theorem State.take_input (s : State) (rest : List Command) :
    (s.take rest).input = rest := rfl

@[simp] theorem State.take_output (s : State) (rest : List Command) :
    (s.take rest).output = s.output := rfl

@[simp] theorem State.take_freeIndex (s : State) (rest : List Command) :
    (s.take rest).freeIndex = s.freeIndex + 1 := rfl

@[simp] theorem State.respond_sessionValid (s : State) (r : Response) :
    (s.respond r).sessionValid = s.sessionValid := rfl

@[simp] theorem State.respond_terminalId (s : State) (r : Response) :
    (s.respond r).terminalId = s.terminalId := rfl

@[simp] theorem State.respond_imei (s : State) (r : Response) :
    (s.respond r).imei = s.imei := rfl

@[simp] theorem State.respond_recordCounter (s : State) (r : Response) :
    (s.respond r).recordCounter = s.recordCounter := rfl

@[simp] theorem State.respond_packetId (s : State) (r : Response) :
    (s.respond r).packetId = s.packetId := rfl

@[simp] theorem State.respond_pending (s : State) (r : Response) :
    (s.respond r).pending = s.pending := rfl

@[simp] theorem State.respond_cfg (s : State) (r : Response) :
    (s.respond r).cfg = s.cfg := rfl

@[simp] theorem State.respond_rom8 (s : State) (r : Response) :
    (s.respond r).rom8 = s.rom8 := rfl

@[simp] theorem State.respond_rom16 (s : State) (r : Response) :
    (s.respond r).rom16 = s.rom16 := rfl

@[simp] theorem State.respond_input (s : State) (r : Response) :
    (s.respond r).input = s.input := rfl

@[simp] theorem State.respond_output (s : State) (r : Response) :
    (s.respond r).output = s.output ++ [r] := rfl

@[simp] theorem State.respond_freeIndex (s : State) (r : Response) :
    (s.respond r).freeIndex = s.freeIndex := rfl

@[simp] theorem State.commitRecord_sessionValid (s : State) (record : Bytes) :
    (s.commitRecord record).sessionValid = s.sessionValid := rfl

@[simp] theorem State.commitRecord_terminalId (s : State) (record : Bytes) :
    (s.commitRecord record).terminalId = s.terminalId := rfl

@[simp] theorem State.commitRecord_imei (s : State) (record : Bytes) :
    (s.commitRecord record).imei = s.imei := rfl

@[simp] theorem State.commitRecord_recordCounter (s : State) (record : Bytes) :
    (s.commitRecord record).recordCounter = ⟨s.recordCounter.val + 1, true⟩ := rfl

@[simp] theorem State.commitRecord_packetId (s : State) (record : Bytes) :
    (s.commitRecord record).packetId = s.packetId := rfl

@[simp] theorem State.commitRecord_pending (s : State) (record : Bytes) :
    (s.commitRecord record).pending = ⟨s.pending.val ++ record, true⟩ := rfl

@[simp] theorem State.commitRecord_cfg (s : State) (record : Bytes) :
    (s.commitRecord record).cfg = s.cfg := rfl

@[simp] theorem State.commitRecord_rom8 (s : State) (record : Bytes) :
    (s.commitRecord record).rom8 = s.rom8 := rfl

@[simp] theorem State.commitRecord_rom16 (s : State) (record : Bytes) :
    (s.commitRecord record).rom16 = s.rom16 := rfl

@[simp] theorem State.commitRecord_input (s : State) (record : Bytes) :
    (s.commitRecord record).input = s.input := rfl

@[simp] theorem State.commitRecord_output (s : State) (record : Bytes) :
    (s.commitRecord record).output = s.output := rfl

@[simp] theorem State.commitRecord_freeIndex (s : State) (record : Bytes) :
    (s.commitRecord record).freeIndex = s.freeIndex := rfl

@[simp] theorem State.closePacket_sessionValid (s : State) (pid : U16) :
    (s.closePacket pid).sessionValid = s.sessionValid := rfl

@[simp] theorem State.closePacket_terminalId (s : State) (pid : U16) :
    (s.closePacket pid).terminalId = s.terminalId := rfl

@[simp] theorem State.closePacket_imei (s : State) (pid : U16) :
    (s.closePacket pid).imei = s.imei := rfl

@[simp] theorem State.closePacket_recordCounter (s : State) (pid : U16) :
    (s.closePacket pid).recordCounter = s.recordCounter := rfl

@[simp] theorem State.closePacket_packetId (s : State) (pid : U16) :
    (s.closePacket pid).packetId = ⟨pid, true⟩ := rfl

@[simp] theorem State.closePacket_pending (s : State) (pid : U16) :
    (s.closePacket pid).pending = ⟨[], true⟩ := rfl

@[simp] theorem State.closePacket_cfg (s : State) (pid : U16) :
    (s.closePacket pid).cfg = s.cfg := rfl

@[simp] theorem State.closePacket_rom8 (s : State) (pid : U16) :
    (s.closePacket pid).rom8 = s.rom8 := rfl

@[simp] theorem State.closePacket_rom16 (s : State) (pid : U16) :
    (s.closePacket pid).rom16 = s.rom16 := rfl

@[simp] theorem State.closePacket_input (s : State) (pid : U16) :
    (s.closePacket pid).input = s.input := rfl

@[simp] theorem State.closePacket_output (s : State) (pid : U16) :
    (s.closePacket pid).output = s.output := rfl

@[simp] theorem State.closePacket_freeIndex (s : State) (pid : U16) :
    (s.closePacket pid).freeIndex = s.freeIndex := rfl

@[simp] theorem State.newSession_sessionValid (s : State) (tid : U32) (im : Bytes) :
    (s.newSession tid im).sessionValid = true := rfl

@[simp] theorem State.newSession_terminalId (s : State) (tid : U32) (im : Bytes) :
    (s.newSession tid im).terminalId = ⟨tid, true⟩ := rfl

@[simp] theorem State.newSession_imei (s : State) (tid : U32) (im : Bytes) :
    (s.newSession tid im).imei = ⟨im, true⟩ := rfl

@[simp] theorem State.newSession_recordCounter (s : State) (tid : U32) (im : Bytes) :
    (s.newSession tid im).recordCounter = ⟨1, true⟩ := rfl

@[simp] theorem State.newSession_packetId (s : State) (tid : U32) (im : Bytes) :
    (s.newSession tid im).packetId = ⟨Config.unwrittenPacketId s.freeIndex, false⟩ := rfl

@[simp] theorem State.newSession_pending (s : State) (tid : U32) (im : Bytes) :
    (s.newSession tid im).pending = ⟨[], true⟩ := rfl

@[simp] theorem State.newSession_cfg (s : State) (tid : U32) (im : Bytes) :
    (s.newSession tid im).cfg = s.cfg := rfl

@[simp] theorem State.newSession_rom8 (s : State) (tid : U32) (im : Bytes) :
    (s.newSession tid im).rom8 = s.rom8 := rfl

@[simp] theorem State.newSession_rom16 (s : State) (tid : U32) (im : Bytes) :
    (s.newSession tid im).rom16 = s.rom16 := rfl

@[simp] theorem State.newSession_input (s : State) (tid : U32) (im : Bytes) :
    (s.newSession tid im).input = s.input := rfl

@[simp] theorem State.newSession_output (s : State) (tid : U32) (im : Bytes) :
    (s.newSession tid im).output = s.output := rfl

@[simp] theorem State.newSession_freeIndex (s : State) (tid : U32) (im : Bytes) :
    (s.newSession tid im).freeIndex = s.freeIndex := rfl

@[simp] theorem State.powerOn_sessionValid (cfg : Cfg) (rom8 : Vector Byte 256) (rom16 : Vector U16 256) :
    (State.powerOn cfg rom8 rom16).sessionValid = false := rfl

@[simp] theorem State.powerOn_terminalId (cfg : Cfg) (rom8 : Vector Byte 256) (rom16 : Vector U16 256) :
    (State.powerOn cfg rom8 rom16).terminalId = ⟨0, false⟩ := rfl

@[simp] theorem State.powerOn_imei (cfg : Cfg) (rom8 : Vector Byte 256) (rom16 : Vector U16 256) :
    (State.powerOn cfg rom8 rom16).imei = ⟨[], false⟩ := rfl

@[simp] theorem State.powerOn_recordCounter (cfg : Cfg) (rom8 : Vector Byte 256) (rom16 : Vector U16 256) :
    (State.powerOn cfg rom8 rom16).recordCounter = ⟨0, false⟩ := rfl

@[simp] theorem State.powerOn_packetId (cfg : Cfg) (rom8 : Vector Byte 256) (rom16 : Vector U16 256) :
    (State.powerOn cfg rom8 rom16).packetId = ⟨0, false⟩ := rfl

@[simp] theorem State.powerOn_pending (cfg : Cfg) (rom8 : Vector Byte 256) (rom16 : Vector U16 256) :
    (State.powerOn cfg rom8 rom16).pending = ⟨[], false⟩ := rfl

@[simp] theorem State.powerOn_cfg (cfg : Cfg) (rom8 : Vector Byte 256) (rom16 : Vector U16 256) :
    (State.powerOn cfg rom8 rom16).cfg = cfg := rfl

@[simp] theorem State.powerOn_rom8 (cfg : Cfg) (rom8 : Vector Byte 256) (rom16 : Vector U16 256) :
    (State.powerOn cfg rom8 rom16).rom8 = rom8 := rfl

@[simp] theorem State.powerOn_rom16 (cfg : Cfg) (rom8 : Vector Byte 256) (rom16 : Vector U16 256) :
    (State.powerOn cfg rom8 rom16).rom16 = rom16 := rfl

@[simp] theorem State.powerOn_input (cfg : Cfg) (rom8 : Vector Byte 256) (rom16 : Vector U16 256) :
    (State.powerOn cfg rom8 rom16).input = [] := rfl

@[simp] theorem State.powerOn_output (cfg : Cfg) (rom8 : Vector Byte 256) (rom16 : Vector U16 256) :
    (State.powerOn cfg rom8 rom16).output = [] := rfl

@[simp] theorem State.powerOn_freeIndex (cfg : Cfg) (rom8 : Vector Byte 256) (rom16 : Vector U16 256) :
    (State.powerOn cfg rom8 rom16).freeIndex = 0 := rfl

end Sys2Proof.Machine
end

