-- ==== Sys2Proof/Laws/Ops.lean ====
section
/-! SUPPORT. What each shared operation can do, said once. -/

namespace Sys2Proof.Machine

open Sys2Proof

@[simp] theorem le16_length (v : U16) : (le16 v).length = 2 := rfl

@[simp] theorem le24_length (v : U24) : (le24 v).length = 3 := rfl

@[simp] theorem le32_length (v : U32) : (le32 v).length = 4 := rfl

@[simp] theorem Reg.set_val {α : Type} (v : α) : (Reg.set v).val = v := rfl

@[simp] theorem Reg.set_written {α : Type} (v : α) : (Reg.set v).written = true := rfl

theorem requireSession_cases {s t : State} {k : StepResult} (h : requireSession s k = .next t) :
    (s.sessionValid = false ∧ t = s.respond (.err .noSession)) ∨
    (s.sessionValid = true ∧ k = .next t) := by
  unfold requireSession raiseError at h
  cases hv : s.sessionValid with
  | true => rw [if_pos hv] at h; exact .inr ⟨rfl, h⟩
  | false => rw [if_neg (by simp [hv])] at h; exact .inl ⟨rfl, by cases h; rfl⟩

theorem accumulate_cases {s t : State} {r : Bytes} (h : accumulate r s = .next t) :
    (65535 < s.pending.val.length + r.length ∧ t = s.respond (.err .lengthOverflow)) ∨
    (s.pending.val.length + r.length ≤ 65535 ∧ t = (s.commitRecord r).respond (.ok .none)) := by
  unfold accumulate raiseError complete at h
  split at h
  · exact .inr ⟨‹_›, by cases h; rfl⟩
  · exact .inl ⟨by omega, by cases h; rfl⟩

theorem appendRecord_cases {s t : State} {r : Except ErrorCode Bytes}
    (h : appendRecord r s = .next t) :
    (∃ e, t = s.respond (.err e)) ∨
    (s.sessionValid = true ∧ ∃ record, r = .ok record ∧
      s.pending.val.length + record.length ≤ 65535 ∧
      t = (s.commitRecord record).respond (.ok .none)) := by
  obtain ⟨-, rfl⟩ | ⟨hv, h⟩ := requireSession_cases h
  · exact .inl ⟨_, rfl⟩
  · cases r with
    | error e => exact .inl ⟨e, by cases h; rfl⟩
    | ok record =>
      obtain ⟨-, rfl⟩ | ⟨hl, rfl⟩ := accumulate_cases h
      · exact .inl ⟨_, rfl⟩
      · exact .inr ⟨hv, record, rfl, hl, rfl⟩

theorem appendRecord_answers (s : State) (r : Except ErrorCode Bytes) :
    ∃ t, appendRecord r s = .next t := by
  unfold appendRecord requireSession
  split
  · cases r with
    | error e => exact ⟨_, rfl⟩
    | ok record =>
      unfold accumulate
      dsimp only
      split
      · exact ⟨_, rfl⟩
      · exact ⟨_, rfl⟩
  · exact ⟨_, rfl⟩

end Sys2Proof.Machine
end

