-- ==== Sys2Proof/Laws/Encoders.lean ====
section
/-! SUPPORT. What the field encoders and the record assembler can answer, said once. -/

namespace Sys2Proof.Machine

open Sys2Proof

theorem ts_cases (cfg : Cfg) (now : Int) :
    (0 ≤ now - cfg.tzOffset ∧ now - cfg.tzOffset ≤ 2 ^ 32 - 1 ∧
      ts cfg now = .ok (BitVec.ofInt 32 (now - cfg.tzOffset))) ∨
    (¬ (0 ≤ now - cfg.tzOffset ∧ now - cfg.tzOffset ≤ 2 ^ 32 - 1) ∧
      ts cfg now = .error .fieldRange) := by
  unfold ts
  dsimp only
  split
  · exact .inl ⟨‹_ ∧ _›.1, ‹_ ∧ _›.2, rfl⟩
  · exact .inr ⟨‹_›, rfl⟩

theorem coord_finite {cfg : Cfg} {d : F64} (h : f64IsFinite d = true) (div : F64) (free : U32) :
    coord cfg d div free = .ok ((coordMagnitude cfg d div).elim free (BitVec.ofInt 32)) := by
  unfold coord
  rw [if_pos h]
  cases coordMagnitude cfg d div <;> rfl

theorem coord_not_finite {cfg : Cfg} {d : F64} (h : f64IsFinite d = false) (div : F64) (free : U32) :
    coord cfg d div free = .error .fieldRange := by
  simp [coord, h]

theorem speed_cases (cfg : Cfg) (v : F64) :
    (f64IsFinite v = true ∧ ∃ n, speedTenths cfg v = some n ∧ 0 ≤ n ∧ n ≤ 65535 ∧
      speed cfg v = .ok (BitVec.ofInt 16 n)) ∨
    ((∀ n, f64IsFinite v = true → speedTenths cfg v = some n → ¬ (0 ≤ n ∧ n ≤ 65535)) ∧
      speed cfg v = .error .fieldRange) := by
  unfold speed
  cases hf : f64IsFinite v with
  | false => exact .inr ⟨fun _ h => by simp at h, by simp⟩
  | true =>
    cases hs : speedTenths cfg v with
    | none => exact .inr ⟨fun _ _ h => by simp at h, by simp⟩
    | some n =>
      by_cases hn : 0 ≤ n ∧ n ≤ 65535
      · exact .inl ⟨rfl, n, rfl, hn.1, hn.2, by simp [hn]⟩
      · exact .inr ⟨fun m _ h => by cases h; exact hn, by simp [hn]⟩

/-- The long record with its checks: it is built exactly when its service block fits 16 bits. -/
theorem longRecord_eq (s : State) (rt flags : Byte) (t : U32) (st : Byte) (body : Bytes) :
    longRecord s rt flags t st body =
      if body.length + 3 ≤ 65535 then
        .ok (headerLong s (BitVec.ofNat 16 (body.length + 3)) flags t st st ++
          ([rt] ++ le16 (BitVec.ofNat 16 body.length) ++ body))
      else .error .lengthOverflow := by
  unfold longRecord serviceBlock recordLength
  by_cases h : body.length ≤ 65535
  · rw [if_pos h]
    simp only [bind, Except.bind, pure, Except.pure, List.length_append, List.length_cons,
      List.length_nil, le16_length]
    by_cases h' : body.length + 3 ≤ 65535
    · rw [if_pos h', if_pos (by omega), show 0 + 1 + 2 + body.length = body.length + 3 by omega]
    · rw [if_neg h', if_neg (by omega)]
  · rw [if_neg h, if_neg (by omega)]
    rfl

/-- The short record with its checks: it is built exactly when its service block fits 16 bits. -/
theorem shortRecord_eq (s : State) (rt : Byte) (body : Bytes) :
    shortRecord s rt body =
      if body.length + 3 ≤ 65535 then
        .ok (headerShort s (BitVec.ofNat 16 (body.length + 3)) ++
          ([rt] ++ le16 (BitVec.ofNat 16 body.length) ++ body))
      else .error .lengthOverflow := by
  unfold shortRecord serviceBlock recordLength
  by_cases h : body.length ≤ 65535
  · rw [if_pos h]
    simp only [bind, Except.bind, pure, Except.pure, List.length_append, List.length_cons,
      List.length_nil, le16_length]
    by_cases h' : body.length + 3 ≤ 65535
    · rw [if_pos h', if_pos (by omega), show 0 + 1 + 2 + body.length = body.length + 3 by omega]
    · rw [if_neg h', if_neg (by omega)]
  · rw [if_neg h, if_neg (by omega)]
    rfl

@[simp] theorem body1_length (s : State) : (body1 s).length = 39 + s.imei.val.length := by
  simp [body1]; omega

@[simp] theorem body2_length (s : State) : (body2 s).length = 8 := by
  simp [body2]

@[simp] theorem body4_length (s : State) : (body4 s).length = 7 + s.imei.val.length := by
  simp [body4]; omega

@[simp] theorem body16_length (s : State) (t la lo : U32) (flags : Byte) (sp : U16) :
    (body16 s t la lo flags sp).length = 21 := rfl

@[simp] theorem headerLong_length (s : State) (rl : U16) (flags : Byte) (t : U32) (a b : Byte) :
    (headerLong s rl flags t a b).length = 15 := rfl

@[simp] theorem headerShort_length (s : State) (rl : U16) : (headerShort s rl).length = 7 := rfl

@[simp] theorem header10_length (fdl pid : U16) : (header10 fdl pid).length = 10 := rfl

theorem longRecord_isRecord {s : State} {rt flags : Byte} {t : U32} {st : Byte} {body r : Bytes}
    (h : longRecord s rt flags t st body = .ok r) : IsRecord s.recordCounter.val r := by
  rw [longRecord_eq] at h
  split at h
  · cases h
    refine ⟨BitVec.ofNat 16 (body.length + 3), [flags] ++ le32 s.terminalId.val ++ le32 t ++ [st, st] ++
      ([rt] ++ le16 (BitVec.ofNat 16 body.length) ++ body), ?_, .inl ?_⟩
    · simp only [headerLong, List.append_assoc]
    · simp only [headerLong, List.length_append, le16_length, le32_length, List.length_cons,
        List.length_nil, BitVec.toNat_ofNat]
      omega
  · cases h

theorem shortRecord_isRecord {s : State} {rt : Byte} {body r : Bytes}
    (h : shortRecord s rt body = .ok r) : IsRecord s.recordCounter.val r := by
  rw [shortRecord_eq] at h
  split at h
  · cases h
    refine ⟨BitVec.ofNat 16 (body.length + 3), [s.cfg.flagsT4, s.cfg.sstT4, s.cfg.rstT4] ++
      ([rt] ++ le16 (BitVec.ofNat 16 body.length) ++ body), ?_, .inr ?_⟩
    · simp only [headerShort, List.append_assoc]
    · simp only [headerShort, List.length_append, le16_length, List.length_cons, List.length_nil,
        BitVec.toNat_ofNat]
      omega
  · cases h

end Sys2Proof.Machine
end

