-- ==== Sys2Proof/Laws/Memory.lean ====
section
/-! SUPPORT. PENDING is the only memory a command writes (spec/20_memory.md R56). Every operation that
writes it keeps it well formed, and a read of one byte sees exactly what was appended. -/

namespace Sys2Proof.Machine

open Sys2Proof

theorem reset_pending_wf : Pending.wf State.reset.pending.val := by
  simp [State.reset, Pending.wf]

theorem newSession_pending_wf (s : State) (tid : U32) (im : Bytes) :
    Pending.wf (s.newSession tid im).pending.val := by
  simp [Pending.wf]

theorem closePacket_pending_wf (s : State) (pid : U16) :
    Pending.wf (s.closePacket pid).pending.val := by
  simp [Pending.wf]

theorem accumulate_pending_wf {s t : State} {r : Bytes} (hw : Pending.wf s.pending.val)
    (h : accumulate r s = .next t) : Pending.wf t.pending.val := by
  obtain ⟨-, rfl⟩ | ⟨hl, rfl⟩ := accumulate_cases h
  · simpa using hw
  · simpa [Pending.wf] using hl

theorem commitRecord_pendingByte_old (s : State) (r : Bytes) {off : Nat}
    (h : off < s.pending.val.length) : (s.commitRecord r).pendingByte off = s.pendingByte off := by
  simp [State.pendingByte, List.getElem?_append_left h]

theorem commitRecord_pendingByte_new (s : State) (r : Bytes) (j : Nat) :
    (s.commitRecord r).pendingByte (s.pending.val.length + j) = r[j]? := by
  simp [State.pendingByte, List.getElem?_append_right]

end Sys2Proof.Machine
end

