-- ==== Sys2Proof/Laws/Exec.lean ====
section
/-! SUPPORT. What each command can answer, said once: every statement about a next state is a case
analysis of `exec_cases`. -/

namespace Sys2Proof.Machine

open Sys2Proof

theorem recordT1_isRecord {s : State} {now : Int} {r : Bytes} (h : recordT1 s now = .ok r) :
    IsRecord s.recordCounter.val r := by
  obtain ⟨-, -, ht⟩ | ⟨-, ht⟩ := ts_cases s.cfg now <;>
    simp only [recordT1, ht, bind, Except.bind] at h
  · exact longRecord_isRecord h
  · cases h

theorem recordT2_isRecord {s : State} {now : Int} {r : Bytes} (h : recordT2 s now = .ok r) :
    IsRecord s.recordCounter.val r := by
  obtain ⟨-, -, ht⟩ | ⟨-, ht⟩ := ts_cases s.cfg now <;>
    simp only [recordT2, ht, bind, Except.bind] at h
  · exact longRecord_isRecord h
  · cases h

theorem recordT4_isRecord {s : State} {r : Bytes} (h : recordT4 s = .ok r) :
    IsRecord s.recordCounter.val r :=
  shortRecord_isRecord h

/-- The record of type 16 exists exactly when every operand is present and passes its check (R147). -/
theorem recordT16_ok {s : State} {now : Int} {lat lon spd : Option F64} {r : Bytes}
    (h : recordT16 s now lat lon spd = .ok r) :
    ∃ la lo sp t fla flo fsp, lat = some la ∧ lon = some lo ∧ spd = some sp ∧
      ts s.cfg now = .ok t ∧
      coord s.cfg la f64Ninety (Config.latitudeOverflow s.freeIndex) = .ok fla ∧
      coord s.cfg lo f64OneEighty (Config.longitudeOverflow s.freeIndex) = .ok flo ∧
      speed s.cfg sp = .ok fsp ∧
      longRecord s 0x10 s.cfg.flagsT16 t 0x02 (body16 s t fla flo (pflags la lo) fsp) = .ok r := by
  unfold recordT16 at h
  split at h
  · rename_i la lo sp
    unfold recordT16Present at h
    cases ht : ts s.cfg now with
    | error e => simp [ht, bind, Except.bind] at h
    | ok t =>
      cases ha : coord s.cfg la f64Ninety (Config.latitudeOverflow s.freeIndex) with
      | error e => simp [ht, ha, bind, Except.bind] at h
      | ok fla =>
        cases ho : coord s.cfg lo f64OneEighty (Config.longitudeOverflow s.freeIndex) with
        | error e => simp [ht, ha, ho, bind, Except.bind] at h
        | ok flo =>
          cases hp : speed s.cfg sp with
          | error e => simp [ht, ha, ho, hp, bind, Except.bind] at h
          | ok fsp =>
            simp only [ht, ha, ho, hp, bind, Except.bind] at h
            exact ⟨la, lo, sp, t, fla, flo, fsp, rfl, rfl, rfl, rfl, ha, ho, hp, h⟩
  · cases h

theorem recordT16_isRecord {s : State} {now : Int} {lat lon spd : Option F64} {r : Bytes}
    (h : recordT16 s now lat lon spd = .ok r) : IsRecord s.recordCounter.val r := by
  obtain ⟨_, _, _, _, _, _, _, -, -, -, -, -, -, -, h⟩ := recordT16_ok h
  exact longRecord_isRecord h

/-- Everything a command can answer: its error, or the effect of its family with the result `ok`. -/
theorem exec_cases {i : Instr} {s t : State} (h : exec i s = .next t) :
    (∃ e, t = s.respond (.err e)) ∨
    (∃ tid im, i = .sessionInit tid im ∧ t = (s.newSession tid im).respond (.ok .none)) ∨
    (∃ data, i = .crc8 data ∧ t = s.respond (.ok (.u8 (crc8 s.rom8 data)))) ∨
    (∃ data, i = .crc16 data ∧ t = s.respond (.ok (.u16 (crc16 s.rom16 data)))) ∨
    (i.isAppend = true ∧ s.sessionValid = true ∧ ∃ record, IsRecord s.recordCounter.val record ∧
      s.pending.val.length + record.length ≤ 65535 ∧
      t = (s.commitRecord record).respond (.ok .none)) ∨
    (i = .totalLength ∧ s.sessionValid = true ∧ s.pending.val.length ≤ 65535 ∧
      t = s.respond (.ok (.u16 (BitVec.ofNat 16 s.pending.val.length)))) ∨
    (i = .finalize ∧ s.sessionValid = true ∧ 0 < s.pending.val.length ∧
      t = (s.closePacket s.recordCounter.val).respond
        (.ok (.bytes (packet s.rom8 s.rom16 s.pending.val s.recordCounter.val)))) := by
  cases i with
  | sessionInit tid im => cases h; exact .inr (.inl ⟨tid, im, rfl, rfl⟩)
  | crc8 data => cases h; exact .inr (.inr (.inl ⟨data, rfl, rfl⟩))
  | crc16 data => cases h; exact .inr (.inr (.inr (.inl ⟨data, rfl, rfl⟩)))
  | appendT1 now =>
    obtain he | ⟨hv, r, hr, hl, ht⟩ := appendRecord_cases h
    · exact .inl he
    · exact .inr (.inr (.inr (.inr (.inl ⟨rfl, hv, r, recordT1_isRecord hr, hl, ht⟩))))
  | appendT2 now =>
    obtain he | ⟨hv, r, hr, hl, ht⟩ := appendRecord_cases h
    · exact .inl he
    · exact .inr (.inr (.inr (.inr (.inl ⟨rfl, hv, r, recordT2_isRecord hr, hl, ht⟩))))
  | appendT4 =>
    obtain he | ⟨hv, r, hr, hl, ht⟩ := appendRecord_cases h
    · exact .inl he
    · exact .inr (.inr (.inr (.inr (.inl ⟨rfl, hv, r, recordT4_isRecord hr, hl, ht⟩))))
  | appendT16 now lat lon spd =>
    obtain he | ⟨hv, r, hr, hl, ht⟩ := appendRecord_cases h
    · exact .inl he
    · exact .inr (.inr (.inr (.inr (.inl ⟨rfl, hv, r, recordT16_isRecord hr, hl, ht⟩))))
  | totalLength =>
    obtain ⟨-, rfl⟩ | ⟨hv, h⟩ := requireSession_cases h
    · exact .inl ⟨_, rfl⟩
    · split at h
      · cases h
        exact .inr (.inr (.inr (.inr (.inr (.inl ⟨rfl, hv, ‹_›, rfl⟩)))))
      · cases h
        exact .inl ⟨_, rfl⟩
  | finalize =>
    obtain ⟨-, rfl⟩ | ⟨hv, h⟩ := requireSession_cases h
    · exact .inl ⟨_, rfl⟩
    · split at h
      · cases h
        exact .inr (.inr (.inr (.inr (.inr (.inr ⟨rfl, hv, ‹_›, rfl⟩)))))
      · cases h
        exact .inl ⟨_, rfl⟩

/-- Everything a step can do: idle, the error of a rejected command, or the execution of the decoded
one. -/
theorem step_cases {s t : State} (h : step s = .next t) :
    (s.input = [] ∧ t = s) ∨
    (∃ c rest, s.input = c :: rest ∧
      ((∃ e, decode c = .error e ∧ t = (s.take rest).respond (.err e)) ∨
       (∃ i, decode c = .ok i ∧ exec i (s.take rest) = .next t))) := by
  unfold step at h
  split at h
  · cases h; exact .inl ⟨‹_›, rfl⟩
  · rename_i c rest hin
    refine .inr ⟨c, rest, hin, ?_⟩
    split at h
    · exact .inr ⟨_, ‹_›, h⟩
    · cases h; exact .inl ⟨_, ‹_›, rfl⟩

end Sys2Proof.Machine
end

