-- ==== Sys2Proof/Laws/PerInstr.lean ====
section
/-! SUPPORT. Statements for all instructions, one lemma per constructor. Family `WordFixesCommand`: the
command word alone selects the command (spec/30_encoding.md R70, R71), whatever operands come with it. -/

namespace Sys2Proof.Laws.WordFixesCommand

open Sys2Proof

/-- Every bundle with the command word of `i` decodes, to an instruction with that same word, and that word is
the one decodeTableWord reads. -/
def Statement (i : Instr) : Prop :=
  (∀ c : Command, c.cmd = i.word → ∃ j, decode c = .ok j ∧ j.word = i.word) ∧
  ∃ j, decodeTableWord 16 i.word.toNat = some j ∧ j.word = i.word

theorem sessionInit (tid : U32) (imei : Bytes) : Statement (.sessionInit tid imei) :=
  ⟨fun c (h : c.cmd = 0x0100) => ⟨.sessionInit c.tid c.data, by
    simp [decode, requireSubZero, Command.op, Command.sub, h], rfl⟩,
   .sessionInit 0 [], show decodeTableWord 16 0x0100 = _ by decide, rfl⟩

theorem crc8 (data : Bytes) : Statement (.crc8 data) :=
  ⟨fun c (h : c.cmd = 0x0200) => ⟨.crc8 c.data, by
    simp [decode, requireSubZero, Command.op, Command.sub, h], rfl⟩,
   .crc8 [], show decodeTableWord 16 0x0200 = _ by decide, rfl⟩

theorem crc16 (data : Bytes) : Statement (.crc16 data) :=
  ⟨fun c (h : c.cmd = 0x0300) => ⟨.crc16 c.data, by
    simp [decode, requireSubZero, Command.op, Command.sub, h], rfl⟩,
   .crc16 [], show decodeTableWord 16 0x0300 = _ by decide, rfl⟩

theorem appendT1 (now : Int) : Statement (.appendT1 now) :=
  ⟨fun c (h : c.cmd = 0x0401) => ⟨.appendT1 c.now.toInt, by
    simp [decode, decodeAppend, Command.op, Command.sub, h], rfl⟩,
   .appendT1 0, show decodeTableWord 16 0x0401 = _ by decide, rfl⟩

theorem appendT2 (now : Int) : Statement (.appendT2 now) :=
  ⟨fun c (h : c.cmd = 0x0402) => ⟨.appendT2 c.now.toInt, by
    simp [decode, decodeAppend, Command.op, Command.sub, h], rfl⟩,
   .appendT2 0, show decodeTableWord 16 0x0402 = _ by decide, rfl⟩

theorem appendT4 : Statement .appendT4 :=
  ⟨fun c (h : c.cmd = 0x0404) => ⟨.appendT4, by
    simp [decode, decodeAppend, Command.op, Command.sub, h], rfl⟩,
   .appendT4, show decodeTableWord 16 0x0404 = _ by decide, rfl⟩

theorem appendT16 (now : Int) (lat lon spd : Option F64) : Statement (.appendT16 now lat lon spd) :=
  ⟨fun c (h : c.cmd = 0x0410) => ⟨.appendT16 c.now.toInt c.lat c.lon c.spd, by
    simp [decode, decodeAppend, Command.op, Command.sub, h], rfl⟩,
   .appendT16 0 none none none, show decodeTableWord 16 0x0410 = _ by decide, rfl⟩

theorem totalLength : Statement .totalLength :=
  ⟨fun c (h : c.cmd = 0x0500) => ⟨.totalLength, by
    simp [decode, requireSubZero, Command.op, Command.sub, h], rfl⟩,
   .totalLength, show decodeTableWord 16 0x0500 = _ by decide, rfl⟩

theorem finalize : Statement .finalize :=
  ⟨fun c (h : c.cmd = 0x0600) => ⟨.finalize, by
    simp [decode, requireSubZero, Command.op, Command.sub, h], rfl⟩,
   .finalize, show decodeTableWord 16 0x0600 = _ by decide, rfl⟩

end Sys2Proof.Laws.WordFixesCommand
end

