-- ==== Sys2Proof/Tests/Slice0.lean ====
section
/-! SUPPORT. Tests and witnesses. Expected values are those of spec/95_test_vectors.md, named in each
docstring; a witness shows that the hypotheses of an obligation can be met, each clause by itself. -/

namespace Sys2Proof.Tests

open Sys2Proof Sys2Proof.Machine

/-- The test assignment TP (95_test_vectors.md section 1). -/
def tp : Cfg where
  tzOffset := 10800
  moduleTemplate := #v[0x01, 0x02, 0x03, 0x04, 0x05, 0x06, 0x07, 0x08]
  direction := 0x2D
  odometer := 0x0A0B0C
  digitalInputs := 0x00
  sourceByte := 0x00
  flagsT16 := 0x05
  flagsT4 := 0x00
  sstT4 := 0x01
  rstT4 := 0x01
  msisdnFill := 0x30
  round := .halfEven
  arith := .binary64

/-- The engine after power-on with the assignment TP and the default ROMs. -/
def power : State := State.powerOn tp defaultTable8 defaultTable16

/-- A session with the given identity, counter and buffer. -/
def session (tid : U32) (imei : Bytes) (counter : U16) (pending : Bytes) : State :=
  { power with
    sessionValid := true
    terminalId := ⟨tid, true⟩
    imei := ⟨imei, true⟩
    recordCounter := ⟨counter, true⟩
    pending := ⟨pending, true⟩ }

/-- The state an instruction leaves. -/
def after (i : Instr) (s : State) : State :=
  match exec i s with
  | .next t => t
  | .fault _ => s
  | .refused _ => s

/-- "123456789". -/
def nine : Bytes := [0x31, 0x32, 0x33, 0x34, 0x35, 0x36, 0x37, 0x38, 0x39]

/-- 5.0, -10.0, 0.25 and 1.0. -/
def five : F64 := 0x4014000000000000
def minusTen : F64 := 0xC024000000000000
def quarter : F64 := 0x3FD0000000000000
def one : F64 := 0x3FF0000000000000

/-- The hypotheses of `Obligations.UnreadOperandFieldsAreIgnored`. -/
abbrev FieldsAgree (c d : Command) : Prop :=
  c.cmd = d.cmd ∧ (c.cmd = 0x0100 → c.tid = d.tid ∧ c.data = d.data) ∧
  (c.cmd = 0x0200 ∨ c.cmd = 0x0300 → c.data = d.data) ∧
  (c.cmd = 0x0401 ∨ c.cmd = 0x0402 → c.now = d.now) ∧
  (c.cmd = 0x0410 → c.now = d.now ∧ c.lat = d.lat ∧ c.lon = d.lon ∧ c.spd = d.spd)

/-- A session and a time whose timestamp is in range. -/
abbrev InSession (s : State) (now : Int) : Prop :=
  s.sessionValid = true ∧ 0 ≤ now - s.cfg.tzOffset ∧ now - s.cfg.tzOffset ≤ 2 ^ 32 - 1

/-- A long byte sequence. -/
def zeros (n : Nat) : Bytes := List.replicate n 0

@[simp] theorem zeros_length (n : Nat) : (zeros n).length = n := by simp [zeros]

/-- The size an APPEND checks, for a session with an IMEI of `n` bytes and an empty buffer. -/
theorem session_size (n k : Nat) : (session 1 (zeros n) 1 []).pending.val.length +
    (k + (session 1 (zeros n) 1 []).imei.val.length) = k + n := by
  simp [session]

/-- The record of V-T4-2. -/
def recordV42 : Bytes :=
  [0x0A, 0x00, 0x03, 0x00, 0x00, 0x01, 0x01, 0x04, 0x07, 0x00, 0x02, 0x02, 0x01, 0x00, 0x00, 0x00, 0x02]

/-! ### Well-formedness: op.NOW is an i64 (R72) -/

theorem test_wf_refuses_now_outside_i64 :
    (Instr.appendT1 (2 ^ 63)).wellFormed = false ∧ (Instr.appendT2 (-2 ^ 63 - 1)).wellFormed = false ∧
    (Instr.appendT16 (2 ^ 63) none none none).wellFormed = false := by decide

theorem test_wf_accepts_the_bounds :
    (Instr.appendT1 (2 ^ 63 - 1)).wellFormed = true ∧ (Instr.appendT2 (-2 ^ 63)).wellFormed = true ∧
    (Instr.appendT16 0 none none none).wellFormed = true ∧ Instr.finalize.wellFormed = true := by decide

/-! ### Decoding: the words of R71, OP in the high byte and SUB in the low byte -/

theorem test_decode_session_init :
    decode { cmd := 0b00000001_00000000, tid := 7, data := nine, now := 1 } =
      .ok (.sessionInit 7 nine) := by decide

theorem test_decode_crc8 :
    decode { cmd := 0b00000010_00000000, data := nine, tid := 7 } = .ok (.crc8 nine) := by decide

theorem test_decode_crc16 :
    decode { cmd := 0b00000011_00000000, data := nine, tid := 7 } = .ok (.crc16 nine) := by decide

theorem test_decode_append_t1 :
    decode { cmd := 0b00000100_00000001, now := 0xFFFFFFFFFFFFFFFF } = .ok (.appendT1 (-1)) := by decide

theorem test_decode_append_t2 :
    decode { cmd := 0b00000100_00000010, now := 0x8000000000000000 } =
      .ok (.appendT2 (-9223372036854775808)) := by decide

theorem test_decode_append_t4 :
    decode { cmd := 0b00000100_00000100, now := 5, lat := some one } = .ok .appendT4 := by decide

theorem test_decode_append_t16 :
    decode { cmd := 0b00000100_00010000, now := 5, lat := some five, lon := none, spd := some one } =
      .ok (.appendT16 5 (some five) none (some one)) := by decide

theorem test_decode_total_length : decode { cmd := 0b00000101_00000000 } = .ok .totalLength := by decide

theorem test_decode_finalize : decode { cmd := 0b00000110_00000000 } = .ok .finalize := by decide

/-- V-DEC-4, V-DEC-5, V-DEC-13, S9. -/
theorem test_decode_unsupported_record_types :
    ([0x0463, 0x0403, 0x0400, 0x04FF] : List U16).all (fun w =>
      decide (decode { cmd := w } = .error .unsupportedRecordType)) = true := by decide

/-- V-DEC-6 to V-DEC-11. -/
theorem test_decode_illegal_commands :
    ([0x0501, 0x0000, 0x0700, 0xFF10, 0x0101, 0x0280] : List U16).all (fun w =>
      decide (decode { cmd := w } = .error .illegalCommand)) = true := by decide

/-! ### One step of each command -/

/-- V-SES-4. -/
theorem test_session_init_replaces :
    let t := after (.sessionInit 2 [0x39]) (session 1 [0x38] 3 (List.replicate 52 0))
    t.terminalId = ⟨2, true⟩ ∧ t.imei = ⟨[0x39], true⟩ ∧ t.recordCounter = ⟨1, true⟩ ∧
    t.pending = ⟨[], true⟩ ∧ t.packetId.written = false := by decide

/-- V-CRC-4. -/
theorem test_crc8_check_value : (after (.crc8 nine) power).output = [.ok (.u8 0xF7)] := by
  decide +kernel

/-- V-CRC-1. -/
theorem test_crc8_empty : (after (.crc8 []) power).output = [.ok (.u8 0xFF)] := by decide

/-- V-CRC-4. -/
theorem test_crc16_check_value : (after (.crc16 nine) power).output = [.ok (.u16 0x29B1)] := by
  decide +kernel

/-- V-DEC-12. -/
theorem test_crc16_empty : (after (.crc16 []) power).output = [.ok (.u16 0xFFFF)] := by decide

/-- V-T1-2. -/
theorem test_append_t1_record :
    (after (.appendT1 10800) (session 1 [] 1 [])).pending.val =
      [0x2A, 0x00, 0x01, 0x00, 0x05, 0x01, 0x00, 0x00, 0x00, 0x00, 0x00, 0x00, 0x00, 0x01, 0x01,
      0x01, 0x27, 0x00, 0x01, 0x00, 0x00, 0x00, 0x9E]
      ++ List.replicate 16 0x30 ++ [0x72, 0x75, 0x73] ++ List.replicate 15 0x30 := by decide

/-- V-TS-3. -/
theorem test_append_t1_before_the_epoch :
    (after (.appendT1 10799) (session 1 [] 1 [])).output = [.err .fieldRange] := by decide

/-- V-T2-1. -/
theorem test_append_t2_record :
    (after (.appendT2 315532800) (session 0x01020304 [] 2 [])).pending.val =
      [0x0B, 0x00, 0x02, 0x00, 0x05, 0x04, 0x03, 0x02, 0x01, 0xD0, 0x7B, 0xCE, 0x12, 0x01, 0x01,
      0x02, 0x08, 0x00, 0x01, 0x02, 0x03, 0x04, 0x05, 0x06, 0x07, 0x08] := by
  decide

/-- V-ACC-3, step 1: the counter wraps. -/
theorem test_append_t2_counter_wraps :
    (after (.appendT2 315532800) (session 1 [] 65535 [])).recordCounter = ⟨0, true⟩ := by decide

/-- V-T4-1. -/
theorem test_append_t4_record :
    (after .appendT4 (session 0x01020304 [0x38, 0x36] 1 [])).pending.val =
      [0x0C, 0x00, 0x01, 0x00, 0x00, 0x01, 0x01, 0x04, 0x09, 0x00, 0x02, 0x02, 0x04, 0x03, 0x02,
      0x01, 0x02, 0x38, 0x36] := by decide

/-- V-T4-2, behind bytes that are already pending. -/
theorem test_append_t4_appends :
    (after .appendT4 (session 1 [] 3 [0xAA])).pending.val = 0xAA :: recordV42 := by decide

/-- V-T16-2. -/
theorem test_append_t16_record :
    (after (.appendT16 18000 (some five) (some minusTen) (some quarter)) (session 1 [] 1 [])).pending.val =
      [0x18, 0x00, 0x01, 0x00, 0x05, 0x01, 0x00, 0x00, 0x00, 0x20, 0x1C, 0x00, 0x00, 0x02, 0x02,
      0x10, 0x15, 0x00, 0x20, 0x1C, 0x00, 0x00, 0x8E, 0xE3, 0x38, 0x0E, 0x8E, 0xE3, 0x38, 0x0E,
      0x03, 0x02, 0x00, 0x2D, 0x0C, 0x0B, 0x0A, 0x00, 0x00] := by decide +kernel

/-- V-DEC-14. -/
theorem test_append_t16_missing_field_first :
    (after (.appendT16 0 none none none) (session 1 [] 1 [])).output = [.err .missingField] := by decide

/-- V-ACC-1, last command. -/
theorem test_total_length :
    (after .totalLength (session 1 [] 3 (List.replicate 111 0))).output = [.ok (.u16 111)] := by decide

/-- V-DEC-1. -/
theorem test_total_length_without_session :
    (after .totalLength power).output = [.err .noSession] := by decide

/-- Program P3, step 3: packet P3a. -/
theorem test_finalize_packet :
    (after .finalize (session 1 [] 2
        [0x18, 0x00, 0x01, 0x00, 0x05, 0x01, 0x00, 0x00, 0x00, 0x20, 0x1C, 0x00, 0x00, 0x02, 0x02,
        0x10, 0x15, 0x00, 0x20, 0x1C, 0x00, 0x00, 0x8E, 0xE3, 0x38, 0x0E, 0x8E, 0xE3, 0x38, 0x0E,
        0x03, 0x02, 0x00, 0x2D, 0x0C, 0x0B, 0x0A, 0x00, 0x00])).output =
      [.ok (.bytes
        [0x01, 0x00, 0x00, 0x0B, 0x00, 0x27, 0x00, 0x02, 0x00, 0x01, 0x0A, 0x18, 0x00, 0x01, 0x00,
        0x05, 0x01, 0x00, 0x00, 0x00, 0x20, 0x1C, 0x00, 0x00, 0x02, 0x02, 0x10, 0x15, 0x00, 0x20,
        0x1C, 0x00, 0x00, 0x8E, 0xE3, 0x38, 0x0E, 0x8E, 0xE3, 0x38, 0x0E, 0x03, 0x02, 0x00, 0x2D,
        0x0C, 0x0B, 0x0A, 0x00, 0x00, 0xCD, 0x64])] := by
  decide +kernel

/-- V-PKT-3. -/
theorem test_finalize_empty_buffer :
    (after .finalize (session 1 [] 1 [])).output = [.err .emptyBuffer] := by decide

/-! ### Witnesses: the hypotheses of each obligation can be met -/

theorem test_witness_StepRunsTheDecodedCommand :
    (State.reset.withFetchWord 16 0x0600).input = [commandOfWord 0x0600] ∧
    decode (commandOfWord 0x0600) = .ok .finalize := by decide

theorem test_witness_RejectedWordOnlyAnswersItsError :
    (State.reset.withFetchWord 16 0x0463).input = [commandOfWord 0x0463] ∧
    decode (commandOfWord 0x0463) = .error .unsupportedRecordType := by decide

theorem test_witness_EngineWithoutCommandKeepsAllState : State.reset.input = [] := rfl

theorem test_witness_OpcodeMapWordsDecode (n : Fin 9) : ∃ c : Command,
    c.cmd = (#v[0x0100, 0x0200, 0x0300, 0x0401, 0x0402, 0x0404, 0x0410, 0x0500, 0x0600] :
      Vector U16 9)[n] := ⟨{ cmd := _ }, rfl⟩

theorem test_witness_EncodeThenDecodeGivesTheCommand :
    (Instr.appendT16 (-2 ^ 63) (some five) none (some one)).wellFormed = true ∧
    (Instr.sessionInit 0xFFFFFFFF nine).wellFormed = true := by decide

theorem test_witness_DecodeThenEncodeKeepsWordAndFields :
    decode { cmd := 0x0410, data := nine, tid := 9, now := 1, lat := some five } =
      .ok (.appendT16 1 (some five) none none) := by decide

/-- One pair for each clause: the fields read agree, every other field differs. -/
theorem test_witness_UnreadOperandFieldsAreIgnored :
    FieldsAgree ⟨0x0100, nine, 7, 1, none, none, none⟩
      ⟨0x0100, nine, 7, 2, some one, some one, some one⟩ ∧
    FieldsAgree ⟨0x0300, nine, 7, 1, none, none, none⟩
      ⟨0x0300, nine, 8, 2, some one, some one, some one⟩ ∧
    FieldsAgree ⟨0x0402, nine, 7, 1, none, none, none⟩
      ⟨0x0402, [], 8, 1, some one, some one, some one⟩ ∧
    FieldsAgree ⟨0x0410, nine, 7, 1, some one, none, none⟩
      ⟨0x0410, [], 8, 1, some one, none, none⟩ ∧
    FieldsAgree ⟨0x0404, nine, 7, 1, none, none, none⟩
      ⟨0x0404, [], 8, 2, some one, some one, some one⟩ := by
  refine ⟨?_, ?_, ?_, ?_, ?_⟩ <;> decide

theorem test_witness_AppendPseudoInstruction :
    ([0, 1, 2, 3, 4, 5, 15, 16, 17, 255] : List Byte).map appendWord =
      [0x0400, 0x0401, 0x0402, 0x0403, 0x0404, 0x0405, 0x040F, 0x0410, 0x0411, 0x04FF] := by decide

theorem test_witness_StatusByteIsTheErrorCode :
    ErrorCode.code .fieldRange = ErrorCode.code .fieldRange := rfl

/-- The clause on SUB of SESSION_INIT, CRC8, CRC16, TOTAL_LENGTH and FINALIZE. -/
theorem test_witness_nonzero_sub :
    ([0x0101, 0x0280, 0x03FF, 0x0501, 0x0610] : List U16).map (fun w =>
      (Command.op { cmd := w }, Command.sub { cmd := w })) =
      [(0x01, 0x01), (0x02, 0x80), (0x03, 0xFF), (0x05, 0x01), (0x06, 0x10)] := by decide

theorem test_witness_ErrorLeavesEveryRegister :
    let s := (session 1 [] 1 []).withFetchWord 16 0x0600
    s.input = [commandOfWord 0x0600] ∧
    ∃ t, step s = .next t ∧ t.output = s.output ++ [.err .emptyBuffer] := by
  exact ⟨rfl, _, rfl, rfl⟩

theorem test_witness_NoSessionGate :
    (Instr.needsSession .finalize = true ∧ power.sessionValid = false) ∧
    Instr.needsSession (.crc8 []) = false ∧ (session 1 [] 1 []).sessionValid = true := by decide

theorem test_witness_OnlyTheNamedRegistersAreWritten :
    (∃ t, exec .totalLength (session 1 [] 3 [0xAA]) = .next t) ∧
    (∀ tid im, Instr.totalLength ≠ .sessionInit tid im) ∧ Instr.totalLength.isAppend = false ∧
    Instr.totalLength ≠ .finalize := by
  exact ⟨⟨_, rfl⟩, by simp, rfl, by decide⟩

/-- A record stored behind one byte: an old byte and a byte behind the record; and a failed append. -/
theorem test_witness_AppendStoresOnlyBehindTheBuffer :
    (∃ t, exec .appendT4 (session 1 [] 3 [0xAA]) = .next t ∧ t.pending.val.length = 18) ∧
    (session 1 [] 3 [0xAA]).pending.val.length = 1 ∧
    (∃ t, exec (.appendT2 0) (session 1 [] 3 [0xAA]) = .next t ∧
      t.output ≠ (session 1 [] 3 [0xAA]).output ++ [.ok .none]) :=
  ⟨⟨_, rfl, by decide⟩, rfl, _, rfl, by decide⟩

theorem test_witness_FirstRecordOfASessionIsNumberOne : ∃ t u : State,
    Instr.appendT4.isAppend = true ∧ exec (.sessionInit 7 []) (session 1 [] 9 [0xAA]) = .next t ∧
    exec .appendT4 t = .next u ∧ u.output = t.output ++ [.ok .none] :=
  ⟨_, _, rfl, rfl, rfl, rfl⟩

theorem test_witness_Crc8EqualsTheBitwiseCrc : power.rom8 = defaultTable8 := rfl

theorem test_witness_Crc16EqualsTheBitwiseCrc : power.rom16 = defaultTable16 := rfl

theorem test_witness_OneChangedByteChangesTheCrc16 : (0x39 : Byte) ≠ 0x38 := by decide

/-- V-TS-2 and V-TS-4 inside, V-TS-3 and V-TS-5 outside. -/
theorem test_witness_TimestampSubtractsTheOffset :
    ([10800, 4294978095] : List Int).all (fun now =>
      decide (0 ≤ now - tp.tzOffset ∧ now - tp.tzOffset ≤ 2 ^ 32 - 1)) = true ∧
    ([10799, 4294978096] : List Int).all (fun now =>
      decide (¬ (0 ≤ now - tp.tzOffset ∧ now - tp.tzOffset ≤ 2 ^ 32 - 1))) = true := by decide

/-- 2^53 + 1 lies halfway between two values; and the finite results end below 2^1024 - 2^970. -/
theorem test_witness_Fl64RoundsToTheNearestBinary64 :
    let x : Frac := ⟨2 ^ 53 + 1, 1⟩
    let c : F64 := 0x4340000000000001
    let err := fun u : Nat => ((u * x.den : Nat) - (x.num * 2 ^ 1074 : Nat) : Int).natAbs
    (0 < x.den ∧ f64IsFinite (fl64 false x) = true ∧ f64IsFinite c = true ∧
      err (f64Units (fl64 false x)) = err (f64Units c) ∧ f64Units (fl64 false x) ≠ f64Units c) ∧
    f64IsFinite (fl64 true ⟨2 ^ 1024 - 2 ^ 970 - 1, 1⟩) = true ∧
    f64IsFinite (fl64 true ⟨2 ^ 1024 - 2 ^ 970, 1⟩) = false := by decide +kernel

/-- 0.5 and 1.5 are ties. -/
theorem test_witness_RoundIntTakesTheNearestInteger :
    ([0x3FE0000000000000, 0x3FF8000000000000] : List F64).all (fun d => f64IsFinite d &&
      decide (2 * (f64RoundInt .halfEven d * 2 ^ 1074 - (f64Units d : Int)).natAbs = 2 ^ 1074)) = true := by
  decide +kernel

/-- V-CO-14 for the first clause, V-CO-12 for the second. -/
theorem test_witness_CoordinateDividesThenMultiplies :
    tp.arith = .binary64 ∧ f64IsFinite 0x7FF0000000000000 = false ∧
    f64IsFinite 0x4056A00000000000 = true ∧
    f64IsFinite (f64Mul (f64Div (f64Abs 0x4056A00000000000) f64Ninety) f64MaxU32) = true := by
  decide +kernel

/-- V-CO-6, V-CO-7, V-CO-9: the bounds of the range. -/
theorem test_witness_CoordinateInRangeIsNotTruncated :
    (f64IsFinite f64OneEighty = true ∧ f64Units f64OneEighty ≤ f64Units f64OneEighty) ∧
    (f64IsFinite 0xC056800000000000 = true ∧ f64Units 0xC056800000000000 ≤ f64Units f64Ninety) ∧
    (f64IsFinite 0x8000000000000000 = true ∧ f64Units 0x8000000000000000 ≤ f64Units f64Ninety) := by
  decide +kernel

theorem test_witness_CoordinateCornerValues : tp.round = .halfEven ∧ tp.arith = .binary64 := by decide

/-- V-SP-9 and V-SP-10 inside; V-SP-12, V-SP-14, V-SP-15 and an infinite product outside. -/
theorem test_witness_SpeedIsTenthsInRange :
    tp.arith = .binary64 ∧
    ([0xBF847AE147AE147B, 0x40B9998000000000] : List F64).all (fun v =>
      let p := f64Mul v f64Ten
      f64IsFinite v && f64IsFinite p && decide (0 ≤ f64RoundInt tp.round p) &&
        decide (f64RoundInt tp.round p ≤ 65535)) = true ∧
    65535 < f64RoundInt tp.round (f64Mul 0x40B9998CCCCCCCCD f64Ten) ∧
    f64RoundInt tp.round (f64Mul 0xBFF0000000000000 f64Ten) < 0 ∧
    f64IsFinite 0x7FF8000000000000 = false ∧
    f64IsFinite (f64Mul 0x7FEFFFFFFFFFFFFF f64Ten) = false := by decide +kernel

theorem test_witness_NegativeMeansBelowZero :
    f64IsFinite minusTen = true ∧ f64IsNaN 0xFFF8000000000000 = true := by decide

/-- V-TS-2, V-TS-4 and V-T1-3 for the record; no session; V-TS-3 and V-TS-5; V-T1-3 one byte longer. -/
theorem test_witness_AppendT1FramesTheTerminalIdentity :
    (InSession (session 1 [] 1 []) 10800 ∧ InSession (session 1 [] 1 []) 4294978095) ∧
    (InSession (session 1 (zeros 65478) 1 []) 10800 ∧
      (session 1 (zeros 65478) 1 []).pending.val.length +
        (57 + (session 1 (zeros 65478) 1 []).imei.val.length) ≤ 65535) ∧
    power.sessionValid = false ∧
    10799 - (session 1 [] 1 []).cfg.tzOffset < 0 ∧
    2 ^ 32 - 1 < 4294978096 - (session 1 [] 1 []).cfg.tzOffset ∧
    InSession (session 1 (zeros 65479) 1 []) 10800 ∧
    65535 < (session 1 (zeros 65479) 1 []).pending.val.length +
      (57 + (session 1 (zeros 65479) 1 []).imei.val.length) := by
  rw [session_size, session_size]
  decide

theorem test_witness_AppendT2FramesTheModuleData :
    (InSession (session 1 [] 1 (zeros 65509)) 4294978095 ∧
      (session 1 [] 1 (zeros 65509)).pending.val.length ≤ 65509) ∧
    power.sessionValid = false ∧
    10799 - (session 1 [] 1 []).cfg.tzOffset < 0 ∧
    2 ^ 32 - 1 < 4294978096 - (session 1 [] 1 []).cfg.tzOffset ∧
    InSession (session 1 [] 1 (zeros 65510)) 10800 ∧
    65509 < (session 1 [] 1 (zeros 65510)).pending.val.length := by
  simp [InSession, session, power, State.powerOn, tp]

/-- V-T4-3 and V-T4-5. -/
theorem test_witness_AppendT4FramesTheServiceIdentity :
    (session 1 (zeros 65518) 1 []).pending.val.length +
      (17 + (session 1 (zeros 65518) 1 []).imei.val.length) ≤ 65535 ∧
    (session 1 (zeros 65518) 1 []).sessionValid = true ∧
    power.sessionValid = false ∧
    65535 < (session 1 (zeros 65519) 1 []).pending.val.length +
      (17 + (session 1 (zeros 65519) 1 []).imei.val.length) ∧
    (session 1 (zeros 65519) 1 []).sessionValid = true := by
  rw [session_size, session_size]
  decide

/-- V-T16-2, and the largest buffer the record fits behind. -/
theorem test_witness_AppendT16FramesThePosition :
    (f64IsFinite five = true ∧ f64IsFinite minusTen = true ∧ f64IsFinite quarter = true ∧
      speedTenths tp quarter = some 2 ∧ speedTenths tp 0x40B9998000000000 = some 65535) ∧
    (session 1 [] 1 (zeros 65496)).cfg = tp ∧
    (session 1 [] 1 (zeros 65496)).sessionValid = true ∧
    (session 1 [] 1 (zeros 65496)).pending.val.length ≤ 65496 ∧
    0 ≤ 18000 - tp.tzOffset ∧ 18000 - tp.tzOffset ≤ 2 ^ 32 - 1 :=
  ⟨by decide +kernel, rfl, rfl, by simp [session], by decide, by decide⟩

/-- No session; V-DEC-14; V-DEC-15, V-DEC-16 and V-T16-4; a buffer one byte too long. -/
theorem test_witness_AppendT16ReportsTheFirstError :
    power.sessionValid = false ∧ (session 1 [] 1 []).sessionValid = true ∧
    (0 - tp.tzOffset < 0 ∧ f64IsFinite 0x7FF8000000000000 = false ∧
      speedTenths tp 0x40B999999999999A = some 65536) ∧
    (speedTenths tp one = some 10 ∧ f64IsFinite one = true ∧ 0 ≤ 10800 - tp.tzOffset) ∧
    65496 < (session 1 [] 1 (zeros 65497)).pending.val.length :=
  ⟨rfl, rfl, by decide +kernel, by decide +kernel, by simp [session]⟩

theorem test_witness_RecordSizes : ∃ t, Instr.appendT4.isAppend = true ∧
    exec .appendT4 (session 1 [] 3 []) = .next t ∧
    t.output = (session 1 [] 3 []).output ++ [.ok .none] :=
  ⟨_, rfl, rfl, rfl⟩

theorem test_witness_AppendNumbersItsRecordAndCountsUp : ∃ t, Instr.isAppend (.appendT2 10800) = true ∧
    exec (.appendT2 10800) (session 1 [] 65535 []) = .next t ∧
    t.output = (session 1 [] 65535 []).output ++ [.ok .none] :=
  ⟨_, rfl, rfl, rfl⟩

theorem test_witness_TotalLengthAnswersTheByteCount :
    (session 1 [] 1 (zeros 65535)).pending.val.length ≤ 65535 ∧
    65535 < (session 1 [] 1 (zeros 65536)).pending.val.length ∧
    (session 1 [] 1 []).sessionValid = true ∧ power.sessionValid = false := by
  simp [session, power, State.powerOn]

theorem test_witness_FinalizeEmitsThePacket :
    ((session 1 [] 1 [0xAA]).sessionValid = true ∧ 0 < (session 1 [] 1 [0xAA]).pending.val.length) ∧
    ((session 1 [] 1 []).sessionValid = true ∧ (session 1 [] 1 []).pending.val.length = 0) ∧
    power.sessionValid = false := by decide

theorem test_witness_SecondFinalizeFindsAnEmptyBuffer : ∃ t pkt,
    exec .finalize (session 1 [] 4 recordV42) = .next t ∧
    t.output = (session 1 [] 4 recordV42).output ++ [.ok (.bytes pkt)] :=
  ⟨_, _, rfl, rfl⟩

theorem test_witness_PacketFramingReadsBack : (session 1 [] 4 recordV42).Inv ∧ ∃ t pkt,
    exec .finalize (session 1 [] 4 recordV42) = .next t ∧
    t.output = (session 1 [] 4 recordV42).output ++ [.ok (.bytes pkt)] :=
  ⟨fun _ => by decide, _, _, rfl, rfl⟩

theorem test_witness_EveryStepKeepsSessionRegistersWritten :
    ((session 1 [] 4 recordV42).withFetchWord 16 0x0404).Inv ∧
    ∃ t, step ((session 1 [] 4 recordV42).withFetchWord 16 0x0404) = .next t ∧ t.sessionValid = true :=
  ⟨fun _ => by decide, _, rfl, rfl⟩

theorem test_witness_EveryStepKeepsRecordsConsecutive :
    ((session 1 [] 4 recordV42).withFetchWord 16 0x0404).Framed ∧
    ∃ t, step ((session 1 [] 4 recordV42).withFetchWord 16 0x0404) = .next t ∧
      t.pending.val.length = 34 :=
  ⟨fun _ => ⟨3, [recordV42], ⟨⟨0x000A, recordV42.drop 4, by decide, .inr (by decide)⟩, trivial⟩,
    by decide, by decide⟩, _, rfl, by decide⟩

theorem test_witness_NoStepChangesConfigurationOrRoms :
    ∃ t, step (power.withFetchWord 16 0x0100) = .next t ∧ t.sessionValid = true := ⟨_, rfl, rfl⟩

/-- A session whose two copies hold different values in the unwritten PACKET_ID. -/
theorem test_witness_NoStepReadsAnUnwrittenRegister :
    let s := (session 1 [] 4 recordV42).withFetchWord 16 0x0600
    let t := { s with packetId := ⟨7, false⟩ }
    s.Inv ∧ s.Agree t ∧ s.packetId.val ≠ t.packetId.val := by
  refine ⟨fun _ => by decide, ?_, by decide⟩
  simp [State.Agree, Reg.Agree, State.withFetchWord, session, power, State.powerOn]

end Sys2Proof.Tests
end

section
/-! PROOF. The rules of spec/00_scope.md: the default parameters (R6), the serialisers (R10) and the rounding of
the binary64 primitives (R14). -/

namespace Sys2Proof.Machine

open Sys2Proof

/-! ### Parameters and serialisers -/

/-- Settles O11: `State.reset` is the reset event applied to the parameters of R6. -/
theorem resetHoldsTheDefaultParameters : Obligations.ResetHoldsTheDefaultParameters :=
  ⟨rfl, rfl, rfl, rfl, rfl, rfl, rfl⟩

/-- The byte that starts at bit `n` of a word. -/
theorem extractByte_toNat {w : Nat} (v : BitVec w) (n : Nat) :
    (v.extractLsb' n 8).toNat = v.toNat / 2 ^ n % 256 := by
  rw [BitVec.extractLsb'_toNat, Nat.shiftRight_eq_div_pow]

theorem le16_map_toNat (v : U16) :
    (le16 v).map BitVec.toNat = [v.toNat % 256, v.toNat / 256] := by
  have : v.toNat < 65536 := v.isLt
  simp only [le16, List.map_cons, List.map_nil, extractByte_toNat, List.cons.injEq, and_true]
  omega

theorem le24_map_toNat (v : U24) : (le24 v).map BitVec.toNat =
    [v.toNat % 256, v.toNat / 256 % 256, v.toNat / 65536] := by
  have : v.toNat < 16777216 := v.isLt
  simp only [le24, List.map_cons, List.map_nil, extractByte_toNat, List.cons.injEq, and_true]
  omega

theorem le32_map_toNat (v : U32) : (le32 v).map BitVec.toNat =
    [v.toNat % 256, v.toNat / 256 % 256, v.toNat / 65536 % 256, v.toNat / 16777216] := by
  have : v.toNat < 4294967296 := v.isLt
  simp only [le32, List.map_cons, List.map_nil, extractByte_toNat, List.cons.injEq, and_true]
  omega

/-- Settles O28: one equation per serialiser. -/
theorem serialisersAreLittleEndian : Obligations.SerialisersAreLittleEndian :=
  ⟨le16_map_toNat, le24_map_toNat, le32_map_toNat⟩

/-! ### `roundInt` -/

/-- By every tie rule `nearest` is one of the two neighbouring integers, and takes the one below or above only
where the fraction is not nearer the other. -/
theorem nearest_cases (rule : TieRule) (neg : Bool) (x : Frac) :
    nearest rule neg x = x.num / x.den ∧ 2 * (x.num % x.den) ≤ x.den ∨
      nearest rule neg x = x.num / x.den + 1 ∧ x.den ≤ 2 * (x.num % x.den) := by
  simp only [nearest]
  split
  next hlow => exact .inl ⟨rfl, hlow.le⟩
  next hlow =>
    split
    next hhigh => exact .inr ⟨rfl, hhigh.le⟩
    next hhigh =>
      -- at a tie both bounds hold, so any choice of the rule is allowed
      have hboth (n : Nat) (hn : n = x.num / x.den ∨ n = x.num / x.den + 1) :
          n = x.num / x.den ∧ 2 * (x.num % x.den) ≤ x.den ∨
            n = x.num / x.den + 1 ∧ x.den ≤ 2 * (x.num % x.den) :=
        hn.imp (⟨·, by omega⟩) (⟨·, by omega⟩)
      apply hboth
      cases rule
      case halfEven => exact ite_eq_or_eq ..
      case halfAwayFromZero => exact .inr rfl
      case halfTowardZero => exact .inl rfl
      case halfUp => exact ite_eq_or_eq ..
      case halfDown => exact (ite_eq_or_eq ..).symm

/-- By every tie rule `nearest` lies within one half of the fraction. -/
theorem nearest_within_half (rule : TieRule) (neg : Bool) (x : Frac) (hd : 0 < x.den) :
    2 * (nearest rule neg x * x.den) ≤ 2 * x.num + x.den ∧
      2 * x.num ≤ 2 * (nearest rule neg x * x.den) + x.den := by
  have hdiv := Nat.div_add_mod' x.num x.den
  have hmod := Nat.mod_lt x.num hd
  rcases nearest_cases rule neg x with ⟨hn, hr⟩ | ⟨hn, hr⟩
  · rw [hn]
    omega
  · rw [hn, Nat.add_one_mul (x.num / x.den)]
    omega

/-- The sign is common to the rounded and the exact value, so the distance is that of the magnitudes. -/
theorem signed_distance (neg : Bool) (n u p : Nat) :
    ((if neg then -(n : Int) else n) * (p : Int) - (if neg then -(u : Int) else u)).natAbs =
      (((n * p : Nat) : Int) - u).natAbs := by
  cases neg
  · simp
  · rw [if_pos rfl, if_pos rfl, Int.natCast_mul, ← Int.natAbs_neg]
    congr 1
    ring

/-- Settles O31: a value of either sign is rounded by magnitude, to within one half. -/
theorem roundIntTakesTheNearestInteger : Obligations.RoundIntTakesTheNearestInteger := by
  intro rule d _ units err
  have hunit : 0 < (f64Magnitude d).den := by rw [f64Magnitude]; positivity
  have herr : err = (((nearest rule (f64Sign d) (f64Magnitude d) * (f64Magnitude d).den : Nat) : Int) -
      (f64Magnitude d).num).natAbs := by
    rw [← signed_distance (f64Sign d)]
    simp only [err, units, f64RoundInt, f64Magnitude, Nat.cast_pow, Nat.cast_ofNat]
  obtain ⟨hlo, hhi⟩ := nearest_within_half rule (f64Sign d) (f64Magnitude d) hunit
  rw [show 2 ^ 1074 = (f64Magnitude d).den from rfl]
  refine ⟨by omega, ?_⟩
  rintro htie rfl
  obtain ⟨n, hn, -, -, heven⟩ := nearest_halfEven (f64Sign d) (f64Magnitude d) hunit
  rw [hn] at herr hlo hhi
  have : n % 2 = 0 := heven (by omega)
  simp only [f64RoundInt, hn]
  split <;> omega

/-! ### `fl64` -/

/-- The bits of the infinity bound the exponent field: a rounded value is finite below them. -/
theorem fl64_isFinite_iff (neg : Bool) (x : Frac) :
    f64IsFinite (fl64 neg x) = true ↔ roundBits x < 2047 * 2 ^ 52 := by
  have := roundBits_le x
  rw [f64IsFinite, fl64_exp, bne_iff_ne]
  omega

theorem fl64_isNaN (neg : Bool) (x : Frac) : f64IsNaN (fl64 neg x) = false := by
  have := roundBits_le x
  have : ¬ (roundBits x / 2 ^ 52 = 2047 ∧ roundBits x % 2 ^ 52 ≠ 0) := by omega
  simpa [f64IsNaN, fl64_exp, fl64_fraction] using this

/-- The last significand bit of a rounded value is the last bit of its significand. -/
theorem fl64_lsb (neg : Bool) (x : Frac) (k m : Nat) (h : roundBits x = k * 2 ^ 52 + m) :
    (fl64 neg x).getLsbD 0 = decide (m % 2 = 1) := by
  rw [BitVec.getLsbD, Nat.testBit_zero, fl64_toNat, h]
  congr 1
  cases neg <;> simp <;> omega

/-- The largest step `k` of a finite result is 2045: there the significand overflows from the midpoint
(2^54 - 1) * 2^2044 on, in units of 2^-1074. -/
theorem roundBits_finite_iff (x : Frac) (hd : 0 < x.den) :
    roundBits x < 2047 * 2 ^ 52 ↔ x.num * 2 ^ 1074 < (2 ^ 54 - 1) * (x.den * 2 ^ 2044) := by
  obtain ⟨k, m, hbits, hm, hlo, hup, h1, h2, htie⟩ := roundBits_shape x hd
  have hmin : roundBits x < 2047 * 2 ^ 52 ↔ k * 2 ^ 52 + m < 2047 * 2 ^ 52 := by omega
  have hstep : ∀ a, 2 ^ (a + k) * x.den = 2 ^ a * (x.den * 2 ^ k) := fun a => by rw [pow_add]; ring
  have hshift (a : Nat) : x.den * 2 ^ (2044 + a) = 2 ^ a * (x.den * 2 ^ 2044) := by
    rw [pow_add, Nat.mul_comm (2 ^ 2044), Nat.mul_left_comm]
  rw [hmin]
  rw [hstep] at hlo hup
  generalize x.num * 2 ^ 1074 = N at *
  rcases Nat.lt_trichotomy k (2044 + 1) with hk | rfl | hk
  · have hX : x.den * 2 ^ k ≤ x.den * 2 ^ 2044 :=
      Nat.mul_le_mul_left _ (pow_le_pow_right₀ one_le_two (by omega))
    omega
  · rw [hshift, pow_one] at h1 h2 htie
    generalize x.den * 2 ^ 2044 = Y at *
    rcases Nat.lt_or_ge m (2 ^ 53 - 1) with h | h
    · have : m * (2 * Y) ≤ (2 ^ 53 - 2) * (2 * Y) := Nat.mul_le_mul_right _ (by omega)
      omega
    · obtain rfl | rfl : m = 2 ^ 53 - 1 ∨ m = 2 ^ 53 := by omega
      · omega
      · omega
  · have hX : x.den * 2 ^ (2044 + 2) ≤ x.den * 2 ^ k :=
      Nat.mul_le_mul_left _ (pow_le_pow_right₀ one_le_two (by omega))
    rw [hshift] at hX
    generalize x.den * 2 ^ 2044 = Y at *
    omega

/-- The overflow bound in the value itself: 2^1024 - 2^970 is (2^54 - 1) * 2^2044 units of 2^-1074. -/
theorem overflow_bound_units (x : Frac) :
    x.num * 2 ^ 1074 < (2 ^ 54 - 1) * (x.den * 2 ^ 2044) ↔
      x.num < (2 ^ 1024 - 2 ^ 970) * x.den := by
  have hbound : (2 ^ 1024 - 2 ^ 970 : Nat) = (2 ^ 54 - 1) * 2 ^ 970 := by
    rw [Nat.sub_mul, ← pow_add, Nat.one_mul]
  have hunits : (2 ^ 54 - 1) * (x.den * 2 ^ 2044) = (2 ^ 54 - 1) * 2 ^ 970 * x.den * 2 ^ 1074 := by
    rw [show 2044 = 970 + 1074 by rfl, pow_add]
    generalize 2 ^ 970 = p
    generalize 2 ^ 1074 = q
    ring
  rw [hbound, hunits]
  exact Nat.mul_lt_mul_right (by positivity)

/-- The distance of `u` units of 2^-1074 from the exact value, in units of 2^-1074 / den. -/
def Frac.unitsError (x : Frac) (u : Nat) : Nat :=
  (((u * x.den : Nat) : Int) - (x.num * 2 ^ 1074 : Nat)).natAbs

/-- A multiple of `X` within one half step of `N` is as near as any other; an equally near other one makes
a tie. -/
theorem nearest_multiple {N X m j : Nat} (h1 : 2 * (m * X) ≤ 2 * N + X) (h2 : 2 * N ≤ 2 * (m * X) + X) :
    (((m * X : Nat) : Int) - N).natAbs ≤ (((j * X : Nat) : Int) - N).natAbs ∧
      ((((m * X : Nat) : Int) - N).natAbs = (((j * X : Nat) : Int) - N).natAbs → j ≠ m →
        2 * (m * X) = 2 * N + X ∨ 2 * N = 2 * (m * X) + X) := by
  rcases Nat.lt_trichotomy j m with h | rfl | h
  · have : (j + 1) * X ≤ m * X := Nat.mul_le_mul_right _ h
    rw [Nat.add_one_mul] at this
    omega
  · exact ⟨le_rfl, fun _ h => absurd rfl h⟩
  · have : (m + 1) * X ≤ j * X := Nat.mul_le_mul_right _ h
    rw [Nat.add_one_mul] at this
    omega

/-- A value below the binade of `N` is farther from `N` than a nearest multiple of `X`, since the lower end
`b * X` of the binade lies between them and is such a multiple. -/
theorem nearest_multiple_below {N X m b c : Nat} (h1 : 2 * (m * X) ≤ 2 * N + X)
    (h2 : 2 * N ≤ 2 * (m * X) + X) (hb : b * X ≤ N) (hc : c < b * X) :
    (((m * X : Nat) : Int) - N).natAbs < ((c : Int) - N).natAbs := by
  have := (nearest_multiple (j := b) h1 h2).1
  omega

/-- The magnitude of a finite rounded value against any other magnitude: at least as near, and with an even
significand where it is only as near. -/
theorem fl64_nearest (neg : Bool) (x : Frac) (hd : 0 < x.den) (hfin : roundBits x < 2047 * 2 ^ 52)
    (c : F64) :
    x.unitsError (f64Units (fl64 neg x)) ≤ x.unitsError (f64Units c) ∧
      (x.unitsError (f64Units (fl64 neg x)) = x.unitsError (f64Units c) →
        f64Units (fl64 neg x) ≠ f64Units c → (fl64 neg x).getLsbD 0 = false) := by
  obtain ⟨k, m, hbits, hm, hlo, -, h1, h2, htie⟩ := roundBits_shape x hd
  have hbits : roundBits x = k * 2 ^ 52 + m := by omega
  have hscale : ∀ j, j * 2 ^ k * x.den = j * (x.den * 2 ^ k) := fun j => by ring
  rw [fl64_units neg x k m hbits hm (hlo.imp_right And.left), fl64_lsb neg x k m hbits]
  have hmultiple (j : Nat) (hj : f64Units c = j * 2 ^ k) :
      x.unitsError (m * 2 ^ k) ≤ x.unitsError (f64Units c) ∧
      (x.unitsError (m * 2 ^ k) = x.unitsError (f64Units c) →
        m * 2 ^ k ≠ f64Units c → decide (m % 2 = 1) = false) := by
    simp only [hj, Frac.unitsError, hscale]
    obtain ⟨hle, heq⟩ := nearest_multiple (j := j) h1 h2
    refine ⟨hle, fun he hne => ?_⟩
    have := htie (heq he (by rintro rfl; exact hne rfl))
    exact decide_eq_false (by omega)
  rcases f64Units_grid c k with ⟨j, hj⟩ | hbelow
  · exact hmultiple j hj
  · rcases hlo with rfl | ⟨-, hlo⟩
    · exact hmultiple (f64Units c) (by simp)
    · have hc : f64Units c * x.den < 2 ^ 52 * (x.den * 2 ^ k) := by
        rw [← hscale, ← pow_add]
        exact Nat.mul_lt_mul_of_pos_right hbelow hd
      rw [pow_add, hscale] at hlo
      have hlt : x.unitsError (m * 2 ^ k) < x.unitsError (f64Units c) := by
        rw [Frac.unitsError, hscale]
        exact nearest_multiple_below h1 h2 hlo hc
      exact ⟨hlt.le, fun he => absurd he hlt.ne⟩

/-- Settles O30: the exact value lies in the binade whose grid `fl64` rounds to, and no binary64 value off
that grid is as near. -/
theorem fl64RoundsToTheNearestBinary64 : Obligations.Fl64RoundsToTheNearestBinary64 := by
  intro neg x hd
  refine ⟨fl64_sign neg x, fl64_isNaN neg x, ?_, fun hfin c _ => ?_⟩
  · rw [fl64_isFinite_iff, roundBits_finite_iff x hd, overflow_bound_units]
  · exact fl64_nearest neg x hd ((fl64_isFinite_iff neg x).mp hfin) c

end Sys2Proof.Machine
end

section
/-! PROOF. The state of spec/10_state.md: which registers a command writes (R23 to R32), the invariants of R29,
and that no command reads an unwritten register (R35). -/

namespace Sys2Proof.Machine

open Sys2Proof

/-! ### What a command leaves -/

/-- Every command is one response behind at most one write of session registers. -/
theorem exec_effect {i : Instr} {s t : State} (h : exec i s = .next t) :
    ∃ u r, t = u.respond r ∧
      (u = s ∨
      (∃ tid im, i = .sessionInit tid im ∧ u = s.newSession tid im) ∨
      (i.isAppend = true ∧ s.sessionValid = true ∧ ∃ record, IsRecord s.recordCounter.val record ∧
        s.pending.val.length + record.length ≤ 65535 ∧ u = s.commitRecord record) ∨
      (i = .finalize ∧ s.sessionValid = true ∧ u = s.closePacket s.recordCounter.val)) := by
  obtain ⟨e, ht⟩ | ⟨tid, im, hi, ht⟩ | ⟨data, -, ht⟩ | ⟨data, -, ht⟩ |
    ⟨hi, hv, record, hrec, hl, ht⟩ | ⟨-, -, -, ht⟩ | ⟨hi, hv, -, ht⟩ := exec_cases h
  · exact ⟨s, _, ht, .inl rfl⟩
  · exact ⟨_, _, ht, .inr (.inl ⟨tid, im, hi, rfl⟩)⟩
  · exact ⟨s, _, ht, .inl rfl⟩
  · exact ⟨s, _, ht, .inl rfl⟩
  · exact ⟨_, _, ht, .inr (.inr (.inl ⟨hi, hv, record, hrec, hl, rfl⟩))⟩
  · exact ⟨s, _, ht, .inl rfl⟩
  · exact ⟨_, _, ht, .inr (.inr (.inr ⟨hi, hv, rfl⟩))⟩

/-- Settles O17: each of the three writes changes its own registers only. -/
theorem onlyTheNamedRegistersAreWritten : Obligations.OnlyTheNamedRegistersAreWritten := by
  intro i s t h
  obtain ⟨u, r, rfl, rfl | ⟨tid, im, hi, rfl⟩ | ⟨hi, -, record, -, -, rfl⟩ | ⟨hi, -, rfl⟩⟩ :=
    exec_effect h
  · exact ⟨rfl, rfl, rfl, rfl, rfl, fun _ => ⟨rfl, rfl, rfl⟩, fun _ _ => rfl, fun _ _ => rfl,
      fun _ _ _ => ⟨rfl, fun _ => rfl⟩⟩
  · exact ⟨rfl, rfl, rfl, rfl, rfl, fun hn => absurd hi (hn tid im), fun hn => absurd hi (hn tid im),
      fun hn => absurd hi (hn tid im), fun hn => absurd hi (hn tid im)⟩
  · exact ⟨rfl, rfl, rfl, rfl, rfl, fun _ => ⟨rfl, rfl, rfl⟩, fun _ hn => absurd hi (by simp [hn]),
      fun _ _ => rfl, fun _ hn => absurd hi (by simp [hn])⟩
  · exact ⟨rfl, rfl, rfl, rfl, rfl, fun _ => ⟨rfl, rfl, rfl⟩, fun _ _ => rfl, fun _ hn => absurd hi hn,
      fun _ _ hn => absurd hi hn⟩

/-! ### Invariants -/

/-- A property that taking a command, responding and the three writes keep is kept by every step. -/
theorem step_keeps {P : State → Prop} {s t : State}
    (take : ∀ u rest, P u → P (u.take rest))
    (respond : ∀ u r, P u → P (u.respond r))
    (newSession : ∀ u tid im, P u → P (u.newSession tid im))
    (commitRecord : ∀ u record, u.sessionValid = true → IsRecord u.recordCounter.val record →
      u.pending.val.length + record.length ≤ 65535 → P u → P (u.commitRecord record))
    (closePacket : ∀ u, u.sessionValid = true → P u → P (u.closePacket u.recordCounter.val))
    (hs : P s) (h : step s = .next t) : P t := by
  obtain ⟨-, rfl⟩ | ⟨c, rest, -, ⟨e, -, rfl⟩ | ⟨i, -, h⟩⟩ := step_cases h
  · exact hs
  · exact respond _ _ (take _ _ hs)
  · have hs := take s rest hs
    obtain ⟨u, r, rfl, rfl | ⟨tid, im, -, rfl⟩ | ⟨-, hv, record, hrec, hl, rfl⟩ | ⟨-, hv, rfl⟩⟩ :=
      exec_effect h
    · exact respond _ _ hs
    · exact respond _ _ (newSession _ _ _ hs)
    · exact respond _ _ (commitRecord _ _ hv hrec hl hs)
    · exact respond _ _ (closePacket _ hv hs)

/-- Settles O54: none of the writes names a configuration register or a ROM. -/
theorem noStepChangesConfigurationOrRoms : Obligations.NoStepChangesConfigurationOrRoms := by
  intro s t
  refine step_keeps (P := fun u => u.cfg = s.cfg ∧ u.rom8 = s.rom8 ∧ u.rom16 = s.rom16)
    ?take ?respond ?newSession ?commitRecord ?closePacket ⟨rfl, rfl, rfl⟩
  case take => exact fun _ _ hu => hu
  case respond => exact fun _ _ hu => hu
  case newSession => exact fun _ _ _ hu => hu
  case commitRecord => exact fun _ _ _ _ _ hu => hu
  case closePacket => exact fun _ _ hu => hu

theorem newSession_inv (s : State) (tid : U32) (im : Bytes) : (s.newSession tid im).Inv :=
  fun _ => ⟨rfl, rfl, rfl, rfl, newSession_pending_wf s tid im⟩

theorem commitRecord_inv {s : State} {record : Bytes} (hs : s.Inv) (hv : s.sessionValid = true)
    (hl : s.pending.val.length + record.length ≤ 65535) : (s.commitRecord record).Inv := by
  obtain ⟨htid, himei, -, -, -⟩ := hs hv
  exact fun _ => ⟨htid, himei, rfl, rfl, by simpa [Pending.wf] using hl⟩

theorem closePacket_inv {s : State} (hs : s.Inv) (hv : s.sessionValid = true) (pid : U16) :
    (s.closePacket pid).Inv := by
  obtain ⟨htid, himei, hcounter, -, -⟩ := hs hv
  exact fun _ => ⟨htid, himei, hcounter, rfl, closePacket_pending_wf s pid⟩

/-- Settles O50: every write in a session writes the registers it names and keeps the bound on PENDING. -/
theorem everyStepKeepsSessionRegistersWritten :
    Obligations.EveryStepKeepsSessionRegistersWritten := by
  intro s t
  refine step_keeps ?take ?respond ?newSession ?commitRecord ?closePacket
  case take => exact fun _ _ hu => hu
  case respond => exact fun _ _ hu => hu
  case newSession => exact fun u tid im _ => newSession_inv u tid im
  case commitRecord => exact fun _ _ hv _ hl hu => commitRecord_inv hu hv hl
  case closePacket => exact fun _ hv hu => closePacket_inv hu hv _

theorem powerOn_inv (cfg : Cfg) (rom8 : Vector Byte 256) (rom16 : Vector U16 256) :
    (State.powerOn cfg rom8 rom16).Inv := by
  simp [State.Inv]

/-- Settles O51: there is no session after reset. -/
theorem sessionRegistersWrittenHoldsAtReset : Obligations.SessionRegistersWrittenHoldsAtReset :=
  ⟨powerOn_inv _ _ _, powerOn_inv⟩

/-! ### Record numbers -/

/-- A record with the next number extends a consecutive sequence. -/
theorem RecordsFrom.concat {n : U16} {recs : List Bytes} {r : Bytes} (hrecs : RecordsFrom n recs)
    (hr : IsRecord (n + BitVec.ofNat 16 recs.length) r) : RecordsFrom n (recs ++ [r]) := by
  induction recs generalizing n with
  | nil => exact ⟨by simpa using hr, trivial⟩
  | cons r' recs ih =>
    obtain ⟨hhead, htail⟩ := hrecs
    refine ⟨hhead, ih htail ?_⟩
    rw [List.length_cons, BitVec.ofNat_add] at hr
    rwa [BitVec.add_assoc, BitVec.add_comm 1]

theorem framed_of_pending_empty {s : State} (h : s.pending.val = []) : s.Framed :=
  fun _ => ⟨s.recordCounter.val, [], trivial, h, by simp⟩

theorem commitRecord_framed {s : State} {record : Bytes} (hs : s.Framed) (hv : s.sessionValid = true)
    (hrec : IsRecord s.recordCounter.val record) : (s.commitRecord record).Framed := by
  obtain ⟨first, recs, hrecs, hpending, hcounter⟩ := hs hv
  refine fun _ => ⟨first, recs ++ [record], hrecs.concat (hcounter ▸ hrec), ?_, ?_⟩
  · simp [hpending]
  · simp [hcounter, BitVec.ofNat_add, BitVec.add_assoc]

/-- Settles O52: a commit extends the sequence by its next number; the other two writes empty PENDING. -/
theorem everyStepKeepsRecordsConsecutive : Obligations.EveryStepKeepsRecordsConsecutive := by
  intro s t
  refine step_keeps ?take ?respond ?newSession ?commitRecord ?closePacket
  case take => exact fun _ _ hu => hu
  case respond => exact fun _ _ hu => hu
  case newSession => exact fun _ _ _ _ => framed_of_pending_empty rfl
  case commitRecord => exact fun _ _ hv hrec _ hu => commitRecord_framed hu hv hrec
  case closePacket => exact fun _ _ _ => framed_of_pending_empty rfl

/-- Settles O53: PENDING is empty after reset. -/
theorem recordsConsecutiveHoldsAtReset : Obligations.RecordsConsecutiveHoldsAtReset :=
  ⟨framed_of_pending_empty rfl, fun _ _ _ => framed_of_pending_empty rfl⟩

/-! ### Unwritten registers -/

/-- Both steps answer a next state, and the two next states agree on everything written (R35). -/
def NextAgree (x y : StepResult) : Prop :=
  ∃ s' t', x = .next s' ∧ y = .next t' ∧ s'.Agree t'

theorem Reg.Agree.eq_of_written {α : Type} {a b : Reg α} (h : a.Agree b) (ha : a.written = true) :
    a = b :=
  congrArg₂ Reg.mk (h.2 ha) h.1

@[simp] theorem Reg.Agree.refl {α : Type} (a : Reg α) : a.Agree a := ⟨rfl, fun _ => rfl⟩

theorem State.agree_withPacketId {s : State} {p : Reg U16} (hp : s.packetId.Agree p) :
    s.Agree { s with packetId := p } := by
  simp [State.Agree, hp]

/-- In a session that meets the invariant only PACKET_ID can be unwritten, so an agreeing state differs in
nothing else. -/
theorem State.Agree.exists_withPacketId {s t : State} (h : s.Agree t) (hi : s.Inv)
    (hv : s.sessionValid = true) : ∃ p, s.packetId.Agree p ∧ t = { s with packetId := p } := by
  obtain ⟨htidW, himeiW, hcounterW, hpendingW, -⟩ := hi hv
  obtain ⟨hvalid, htid, himei, hcounter, hpid, hpending, hcfg, hrom8, hrom16, hin, hout, hfree⟩ := h
  refine ⟨t.packetId, hpid, ?_⟩
  rw [hvalid, htid.eq_of_written htidW, himei.eq_of_written himeiW,
    hcounter.eq_of_written hcounterW, hpending.eq_of_written hpendingW, hcfg, hrom8, hrom16, hin, hout,
    hfree]

theorem State.Agree.refl (s : State) : s.Agree s := by
  simp [State.Agree]

theorem State.Agree.respond {s t : State} (h : s.Agree t) (r : Response) :
    (s.respond r).Agree (t.respond r) := by
  simpa [State.Agree] using h

theorem State.Agree.take {s t : State} (h : s.Agree t) (rest : List Command) :
    (s.take rest).Agree (t.take rest) := by
  simp only [State.Agree] at h
  simp [State.Agree, h]

theorem State.Agree.newSession {s t : State} (h : s.Agree t) (tid : U32) (im : Bytes) :
    (s.newSession tid im).Agree (t.newSession tid im) := by
  simp only [State.Agree] at h
  simp [State.Agree, h]

theorem complete_agree {s t : State} (h : s.Agree t) (r : Result) :
    NextAgree (complete r s) (complete r t) := ⟨_, _, rfl, rfl, h.respond _⟩

theorem raiseError_agree {s t : State} (h : s.Agree t) (e : ErrorCode) :
    NextAgree (raiseError e s) (raiseError e t) := ⟨_, _, rfl, rfl, h.respond _⟩

theorem requireSession_agree {s t : State} {k k' : StepResult} (h : s.Agree t)
    (hk : s.sessionValid = true → NextAgree k k') :
    NextAgree (requireSession s k) (requireSession t k') := by
  obtain ⟨hvalid, -⟩ := id h
  unfold requireSession
  rw [← hvalid]
  split
  · exact hk ‹_›
  · exact raiseError_agree h _

theorem accumulate_agree {s t : State} (record : Bytes) (h : s.Agree t) (hi : s.Inv)
    (hv : s.sessionValid = true) : NextAgree (accumulate record s) (accumulate record t) := by
  obtain ⟨p, hp, rfl⟩ := h.exists_withPacketId hi hv
  unfold accumulate
  dsimp only
  split
  · exact complete_agree (State.agree_withPacketId (s := s.commitRecord record) hp) _
  · exact raiseError_agree h _

/-- An APPEND reads registers that the invariant of R29 has written, when encoding its record does not read
PACKET_ID. -/
theorem appendRecord_agree {s t : State} (record : State → Except ErrorCode Bytes)
    (hrecord : ∀ u p, record { u with packetId := p } = record u) (h : s.Agree t) (hi : s.Inv) :
    NextAgree (appendRecord (record s) s) (appendRecord (record t) t) := by
  refine requireSession_agree h fun hv => ?_
  have hsame : record t = record s := by
    obtain ⟨p, -, rfl⟩ := h.exists_withPacketId hi hv
    exact hrecord s p
  rw [hsame]
  cases record s with
  | error e => exact raiseError_agree h e
  | ok bytes => exact accumulate_agree bytes h hi hv

theorem execTotalLength_agree {s t : State} (h : s.Agree t) (hi : s.Inv) :
    NextAgree (execTotalLength s) (execTotalLength t) := by
  refine requireSession_agree h fun hv => ?_
  obtain ⟨p, hp, rfl⟩ := h.exists_withPacketId hi hv
  dsimp only
  split
  · exact complete_agree h _
  · exact raiseError_agree h _

theorem execFinalize_agree {s t : State} (h : s.Agree t) (hi : s.Inv) :
    NextAgree (execFinalize s) (execFinalize t) := by
  refine requireSession_agree h fun hv => ?_
  obtain ⟨p, hp, rfl⟩ := h.exists_withPacketId hi hv
  dsimp only
  split
  · -- both packets are closed with the same counter, which writes PACKET_ID
    exact complete_agree (State.Agree.refl _) _
  · exact raiseError_agree h _

theorem exec_agree (i : Instr) {s t : State} (h : s.Agree t) (hi : s.Inv) :
    NextAgree (exec i s) (exec i t) := by
  obtain ⟨-, -, -, -, -, -, -, hrom8, hrom16, -⟩ := id h
  cases i with
  | sessionInit tid im => exact complete_agree (h.newSession tid im) _
  | crc8 data =>
    simp only [exec, execCrc8, ← hrom8]
    exact complete_agree h _
  | crc16 data =>
    simp only [exec, execCrc16, ← hrom16]
    exact complete_agree h _
  | appendT1 now => exact appendRecord_agree (recordT1 · now) (fun _ _ => rfl) h hi
  | appendT2 now => exact appendRecord_agree (recordT2 · now) (fun _ _ => rfl) h hi
  | appendT4 => exact appendRecord_agree recordT4 (fun _ _ => rfl) h hi
  | appendT16 now lat lon spd =>
    exact appendRecord_agree (recordT16 · now lat lon spd) (fun _ _ => rfl) h hi
  | totalLength => exact execTotalLength_agree h hi
  | finalize => exact execFinalize_agree h hi

/-- Settles O55: the gate is on SESSION_VALID, and in a session every register a command reads is written. -/
theorem noStepReadsAnUnwrittenRegister : Obligations.NoStepReadsAnUnwrittenRegister := by
  intro s t hi h
  obtain ⟨-, -, -, -, -, -, -, -, -, hin, -⟩ := id h
  unfold step
  rw [← hin]
  cases s.input with
  | nil => exact ⟨s, t, rfl, rfl, h⟩
  | cons c rest =>
    dsimp only
    cases decode c with
    | error e => exact raiseError_agree (h.take rest) e
    | ok i => exact exec_agree i (h.take rest) hi

end Sys2Proof.Machine
end

section
/-! PROOF. The memory of spec/20_memory.md: where an APPEND writes PENDING (R56, R57, R160), and that commands
execute one at a time in the order the host issues them (R61). -/

namespace Sys2Proof.Machine

open Sys2Proof

/-- Everything an APPEND can do: an error, or the commit of one whole record (R57). -/
theorem exec_append_cases {i : Instr} {s t : State} (hi : i.isAppend = true) (h : exec i s = .next t) :
    (∃ e, t = s.respond (.err e)) ∨
    (s.sessionValid = true ∧ ∃ record, IsRecord s.recordCounter.val record ∧
      s.pending.val.length + record.length ≤ 65535 ∧
      t = (s.commitRecord record).respond (.ok .none)) := by
  obtain he | ⟨_, _, rfl, -⟩ | ⟨_, rfl, -⟩ | ⟨_, rfl, -⟩ | ⟨-, hcommit⟩ | ⟨rfl, -⟩ | ⟨rfl, -⟩ := exec_cases h
  · exact .inl he
  · cases hi
  · cases hi
  · cases hi
  · exact .inr hcommit
  · cases hi
  · cases hi

theorem State.pendingByte_eq_none {s : State} {off : Nat} (h : s.pending.val.length ≤ off) :
    s.pendingByte off = none :=
  List.getElem?_eq_none h

/-- The commit of a record changes no offset outside the bytes it adds. -/
theorem commitRecord_pendingByte_outside (s : State) (r : Bytes) {off : Nat}
    (h : off < s.pending.val.length ∨ (s.commitRecord r).pending.val.length ≤ off) :
    (s.commitRecord r).pendingByte off = s.pendingByte off := by
  obtain hold | hnew := h
  · exact commitRecord_pendingByte_old s r hold
  · have hgrows : s.pending.val.length ≤ (s.commitRecord r).pending.val.length := by simp
    rw [State.pendingByte_eq_none hnew, State.pendingByte_eq_none (hgrows.trans hnew)]

/-- Settles O18: an APPEND writes PENDING only by the commit of its record, which answers ok. -/
theorem appendStoresOnlyBehindTheBuffer : Obligations.AppendStoresOnlyBehindTheBuffer := by
  intro i s t hi h
  obtain ⟨e, rfl⟩ | ⟨-, record, -, -, rfl⟩ := exec_append_cases hi h
  · exact ⟨fun _ _ => rfl, fun _ _ => rfl⟩
  · exact ⟨fun _ hoff => commitRecord_pendingByte_outside s record hoff, fun hout => absurd rfl hout⟩

/-- A waiting command that decodes is taken and executed (R234). -/
theorem step_of_decode_ok {s : State} {c : Command} {rest : List Command} {i : Instr}
    (hin : s.input = c :: rest) (hdec : decode c = .ok i) : step s = exec i (s.take rest) := by
  simp only [step, hin, hdec]

/-- Settles O1: `State.take` moves past the command and its free values, and changes nothing else. -/
theorem stepRunsTheDecodedCommand : Obligations.StepRunsTheDecodedCommand :=
  fun _ _ _ _ => step_of_decode_ok

end Sys2Proof.Machine
end

section
/-! PROOF. The command interface of spec/30_encoding.md: the decoder (R74), the opcode map (R71), the operand
fields each command reads (R72), APPEND's pseudo-instruction (R78), responses (R73) and record sizes (R87). -/

namespace Sys2Proof

/-! ### The decoder -/

theorem requireSubZero_ok_iff {c : Command} {i j : Instr} :
    requireSubZero c i = .ok j ↔ c.sub = 0 ∧ i = j := by
  unfold requireSubZero
  split
  next h => simp [h]
  next h => exact ⟨nofun, fun ⟨hsub, _⟩ => absurd hsub h⟩

theorem requireSubZero_error_iff {c : Command} {i : Instr} {e : ErrorCode} :
    requireSubZero c i = .error e ↔ c.sub ≠ 0 ∧ e = .illegalCommand := by
  unfold requireSubZero
  split
  next h => simp [h]
  next h => exact ⟨fun he => ⟨h, (Except.error.inj he).symm⟩, fun ⟨_, he⟩ => by rw [he]⟩

/-- The record types one after the other (R74). -/
theorem decodeAppend_eq (c : Command) :
    decodeAppend c =
      if c.sub = 1 then .ok (.appendT1 c.now.toInt)
      else if c.sub = 2 then .ok (.appendT2 c.now.toInt)
      else if c.sub = 4 then .ok .appendT4
      else if c.sub = 16 then .ok (.appendT16 c.now.toInt c.lat c.lon c.spd)
      else .error .unsupportedRecordType := by
  simp only [decodeAppend, ← BitVec.toNat_inj]
  split <;> simp_all

theorem decodeAppend_error_iff {c : Command} {e : ErrorCode} :
    decodeAppend c = .error e ↔
      c.sub ∉ ([0x01, 0x02, 0x04, 0x10] : List Byte) ∧ e = .unsupportedRecordType := by
  rw [decodeAppend_eq]
  split_ifs <;> simp_all [eq_comm (a := e)]

/-- The operations one after the other (R74). -/
theorem decode_eq (c : Command) :
    decode c =
      if c.op = 0x01 then requireSubZero c (.sessionInit c.tid c.data)
      else if c.op = 0x02 then requireSubZero c (.crc8 c.data)
      else if c.op = 0x03 then requireSubZero c (.crc16 c.data)
      else if c.op = 0x04 then decodeAppend c
      else if c.op = 0x05 then requireSubZero c .totalLength
      else if c.op = 0x06 then requireSubZero c .finalize
      else .error .illegalCommand := by
  simp only [decode, ← BitVec.toNat_inj]
  split <;> simp_all

/-- R74: a word is rejected by the record type of an APPEND, or as no command at all. -/
theorem decode_error_iff {c : Command} {e : ErrorCode} :
    decode c = .error e ↔
      c.op = 0x04 ∧ c.sub ∉ ([0x01, 0x02, 0x04, 0x10] : List Byte) ∧ e = .unsupportedRecordType ∨
      (c.op ∉ ([0x01, 0x02, 0x03, 0x04, 0x05, 0x06] : List Byte) ∨ c.op ≠ 0x04 ∧ c.sub ≠ 0x00) ∧
        e = .illegalCommand := by
  rw [decode_eq]
  split_ifs <;> simp_all [requireSubZero_error_iff, decodeAppend_error_iff, eq_comm (a := e)]

theorem Command.cmd_eq_append_iff {c : Command} {op sub : Byte} :
    c.cmd = op ++ sub ↔ c.op = op ∧ c.sub = sub := by
  constructor
  · intro h
    rw [Command.op, Command.sub, h]
    exact ⟨(BitVec.extractLsb'_append_eq_of_le (w := 8) le_rfl).trans BitVec.extractLsb'_eq_self,
      (BitVec.extractLsb'_append_eq_of_add_le (w := 8) le_rfl).trans BitVec.extractLsb'_eq_self⟩
  · rintro ⟨rfl, rfl⟩
    exact (BitVec.extractLsb'_append_extractLsb' (w := 8) (len := 8)).symm

theorem Command.op_eq_of_cmd_eq {c d : Command} (h : c.cmd = d.cmd) : c.op = d.op :=
  congrArg (BitVec.extractLsb' 8 8) h

theorem Command.sub_eq_of_cmd_eq {c d : Command} (h : c.cmd = d.cmd) : c.sub = d.sub :=
  congrArg (BitVec.extractLsb' 0 8) h

/-- The command of `i` with its operands taken from the bundle `c` (R72). -/
def Instr.withOperands (c : Command) : Instr → Instr
  | .sessionInit _ _ => .sessionInit c.tid c.data
  | .crc8 _ => .crc8 c.data
  | .crc16 _ => .crc16 c.data
  | .appendT1 _ => .appendT1 c.now.toInt
  | .appendT2 _ => .appendT2 c.now.toInt
  | .appendT4 => .appendT4
  | .appendT16 _ _ _ _ => .appendT16 c.now.toInt c.lat c.lon c.spd
  | .totalLength => .totalLength
  | .finalize => .finalize

/-- The decoder run on each word of the opcode map (R71). -/
theorem decode_of_word {c : Command} {i : Instr} (h : c.cmd = i.word) :
    decode c = .ok (i.withOperands c) := by
  cases i <;> simp only [Instr.word] at h <;>
    simp [decode_eq, decodeAppend_eq, requireSubZero, Command.op, Command.sub, Instr.withOperands, h]

theorem word_of_requireSubZero {c : Command} {i j : Instr} {op : Byte} (hop : c.op = op)
    (hi : op ++ (0x00 : Byte) = i.word) (h : requireSubZero c i = .ok j) : c.cmd = j.word := by
  obtain ⟨hsub, rfl⟩ := requireSubZero_ok_iff.mp h
  exact (Command.cmd_eq_append_iff.mpr ⟨hop, hsub⟩).trans hi

theorem word_of_decodeAppend {c : Command} {i : Instr} (hop : c.op = 0x04)
    (h : decodeAppend c = .ok i) : c.cmd = i.word := by
  rw [decodeAppend_eq] at h
  split_ifs at h with hsub hsub hsub hsub <;> cases h <;>
    exact Command.cmd_eq_append_iff.mpr ⟨hop, hsub⟩

/-- No word outside the opcode map decodes. -/
theorem word_of_decode {c : Command} {i : Instr} (h : decode c = .ok i) : c.cmd = i.word := by
  rw [decode_eq] at h
  split_ifs at h with hop hop hop hop hop hop
  · exact word_of_requireSubZero hop rfl h
  · exact word_of_requireSubZero hop rfl h
  · exact word_of_requireSubZero hop rfl h
  · exact word_of_decodeAppend hop h
  · exact word_of_requireSubZero hop rfl h
  · exact word_of_requireSubZero hop rfl h

theorem decode_ok_iff {c : Command} {i : Instr} :
    decode c = .ok i ↔ c.cmd = i.word ∧ i.withOperands c = i := by
  constructor
  · intro h
    have hword := word_of_decode h
    exact ⟨hword, Except.ok.inj ((decode_of_word hword).symm.trans h)⟩
  · rintro ⟨hword, hoperands⟩
    rw [decode_of_word hword, hoperands]

/-! ### The encoder -/

@[simp] theorem encode_cmd (i : Instr) : (encode i).cmd = i.word := by
  cases i <;> rfl

theorem isI64_toInt (b : I64) : isI64 b.toInt = true := by
  simpa [isI64] using And.intro b.le_toInt b.toInt_lt

theorem toInt_ofInt_of_isI64 {n : Int} (h : isI64 n = true) : (BitVec.ofInt 64 n).toInt = n := by
  simp only [isI64, Bool.and_eq_true, decide_eq_true_eq] at h
  exact BitVec.toInt_ofInt_eq_self (by decide) h.1 h.2

theorem withOperands_wellFormed (c : Command) (i : Instr) : (i.withOperands c).wellFormed = true := by
  cases i <;> simp [Instr.withOperands, Instr.wellFormed, isI64_toInt]

/-- The encoder puts every operand in the field the command reads it from. -/
theorem withOperands_encode {i : Instr} (h : i.wellFormed = true) : i.withOperands (encode i) = i := by
  cases i with
  | appendT1 now => exact congrArg Instr.appendT1 (toInt_ofInt_of_isI64 h)
  | appendT2 now => exact congrArg Instr.appendT2 (toInt_ofInt_of_isI64 h)
  | appendT16 now lat lon spd =>
    exact congrArg (Instr.appendT16 · lat lon spd) (toInt_ofInt_of_isI64 h)
  | _ => rfl

/-- Settles O6: the encoder writes the word of `i`, and the decoder reads its operands back. -/
theorem encodeThenDecodeGivesTheCommand : Obligations.EncodeThenDecodeGivesTheCommand :=
  fun i h => decode_ok_iff.mpr ⟨encode_cmd i, withOperands_encode h⟩

/-- Settles O7: the decoded operand `op.NOW` is an i64, so the encoder loses nothing. -/
theorem decodeThenEncodeKeepsWordAndFields : Obligations.DecodeThenEncodeKeepsWordAndFields := by
  intro c i h
  obtain ⟨hword, hoperands⟩ := decode_ok_iff.mp h
  have hwf : i.wellFormed = true := hoperands ▸ withOperands_wellFormed c i
  exact ⟨hwf, (encode_cmd i).trans hword.symm, encodeThenDecodeGivesTheCommand i hwf⟩

/-! ### The opcode map -/

/-- Settles O4: the word of each command, bit by bit. -/
theorem opcodeMapWordsDecode : Obligations.OpcodeMapWordsDecode := fun c =>
  ⟨decode_of_word (i := .sessionInit c.tid c.data), decode_of_word (i := .crc8 c.data),
    decode_of_word (i := .crc16 c.data), decode_of_word (i := .appendT1 c.now.toInt),
    decode_of_word (i := .appendT2 c.now.toInt), decode_of_word (i := .appendT4),
    decode_of_word (i := .appendT16 c.now.toInt c.lat c.lon c.spd), decode_of_word (i := .totalLength),
    decode_of_word (i := .finalize)⟩

theorem exists_word_iff (w : U16) : (∃ i : Instr, w = i.word) ↔
    w ∈ ([0x0100, 0x0200, 0x0300, 0x0401, 0x0402, 0x0404, 0x0410, 0x0500, 0x0600] : List U16) := by
  constructor
  · rintro ⟨i, rfl⟩
    cases i <;> simp [Instr.word]
  · simp only [List.mem_cons, List.not_mem_nil, or_false]
    rintro (rfl | rfl | rfl | rfl | rfl | rfl | rfl | rfl | rfl)
    exacts [⟨.sessionInit 0 [], rfl⟩, ⟨.crc8 [], rfl⟩, ⟨.crc16 [], rfl⟩, ⟨.appendT1 0, rfl⟩,
      ⟨.appendT2 0, rfl⟩, ⟨.appendT4, rfl⟩, ⟨.appendT16 0 none none none, rfl⟩,
      ⟨.totalLength, rfl⟩, ⟨.finalize, rfl⟩]

theorem decodes_iff (c : Command) : (∃ i, decode c = .ok i) ↔ ∃ i : Instr, c.cmd = i.word :=
  ⟨fun ⟨i, h⟩ => ⟨i, word_of_decode h⟩, fun ⟨_, h⟩ => ⟨_, decode_of_word h⟩⟩

/-- Settles O5: the decoder answers by the word alone, one of its two errors outside the opcode map. -/
theorem everyOtherWordIsRejectedByName : Obligations.EveryOtherWordIsRejectedByName := fun c =>
  ⟨(decodes_iff c).trans (exists_word_iff c.cmd), by simp [decode_error_iff], by simp [decode_error_iff],
    rfl, rfl⟩

/-- Settles O8: an accepted word reads its own operand fields, a rejected one reads none. -/
theorem unreadOperandFieldsAreIgnored : Obligations.UnreadOperandFieldsAreIgnored := by
  intro c d hcmd hsession hcrc hnow hposition
  cases hc : decode c with
  | error e =>
    rw [decode_error_iff, Command.op_eq_of_cmd_eq hcmd, Command.sub_eq_of_cmd_eq hcmd,
      ← decode_error_iff] at hc
    exact hc.symm
  | ok i =>
    obtain ⟨hword, hoperands⟩ := decode_ok_iff.mp hc
    have hsame : i.withOperands d = i.withOperands c := by
      cases i with
      | sessionInit => simp [Instr.withOperands, hsession hword]
      | crc8 => simp [Instr.withOperands, hcrc (.inl hword)]
      | crc16 => simp [Instr.withOperands, hcrc (.inr hword)]
      | appendT1 => simp [Instr.withOperands, hnow (.inl hword)]
      | appendT2 => simp [Instr.withOperands, hnow (.inr hword)]
      | appendT16 => simp [Instr.withOperands, hposition hword]
      | _ => rfl
    exact (decode_ok_iff.mpr ⟨hcmd ▸ hword, hsame.trans hoperands⟩).symm

theorem appendWord_eq_append (n : Byte) : appendWord n = (0x04 : Byte) ++ n := rfl

/-- Settles O9: the word has OP 0x04 and the record type `n` as SUB. -/
theorem appendPseudoInstruction : Obligations.AppendPseudoInstruction := by
  intro n c h
  obtain ⟨hop, hsub⟩ := Command.cmd_eq_append_iff.mp (h.trans (appendWord_eq_append n))
  simp [decode_eq, hop, decodeAppend_eq, hsub]

/-! ### The status byte -/

/-- The table of R202 read from code to error. -/
def ErrorCode.ofCode (b : Byte) : Option ErrorCode :=
  match b.toNat with
  | 0x01 => some .unsupportedRecordType
  | 0x02 => some .missingField
  | 0x03 => some .emptyBuffer
  | 0x04 => some .lengthOverflow
  | 0x10 => some .illegalCommand
  | 0x11 => some .noSession
  | 0x12 => some .fieldRange
  | _ => none

theorem ErrorCode.ofCode_code (e : ErrorCode) : ofCode e.code = some e := by
  cases e <;> rfl

theorem ErrorCode.code_injective : Function.Injective ErrorCode.code := by
  intro e e' h
  rw [← Option.some_inj, ← ofCode_code, h, ofCode_code]

/-- Settles O14: a code determines its error. -/
theorem statusByteIsTheErrorCode : Obligations.StatusByteIsTheErrorCode :=
  ⟨fun _ => rfl, fun _ => rfl, rfl, rfl, rfl, rfl, rfl, rfl, rfl, fun _ _ h => ErrorCode.code_injective h⟩

namespace Machine

/-! ### The response -/

theorem requireSession_answers {s : State} {k : StepResult} (h : ∃ t, k = .next t) :
    ∃ t, requireSession s k = .next t := by
  unfold requireSession
  split
  · exact h
  · exact ⟨_, rfl⟩

/-- Every command completes in every state: no meaning is a fault or a refusal (R5). -/
theorem exec_answers (i : Instr) (s : State) : ∃ t, exec i s = .next t := by
  cases i with
  | sessionInit tid im => exact ⟨_, rfl⟩
  | crc8 data => exact ⟨_, rfl⟩
  | crc16 data => exact ⟨_, rfl⟩
  | appendT1 now => exact appendRecord_answers s _
  | appendT2 now => exact appendRecord_answers s _
  | appendT4 => exact appendRecord_answers s _
  | appendT16 now lat lon spd => exact appendRecord_answers s _
  | totalLength =>
    refine requireSession_answers ?_
    split
    · exact ⟨_, rfl⟩
    · exact ⟨_, rfl⟩
  | finalize =>
    refine requireSession_answers ?_
    split
    · exact ⟨_, rfl⟩
    · exact ⟨_, rfl⟩

/-- Settles O12: one response joins the state that the command's writes leave. -/
theorem everyCommandAnswersOnce : Obligations.EveryCommandAnswersOnce := by
  intro i s
  obtain ⟨t, h⟩ := exec_answers i s
  obtain ⟨e, rfl⟩ | ⟨tid, im, rfl, rfl⟩ | ⟨data, rfl, rfl⟩ | ⟨data, rfl, rfl⟩ |
    ⟨hi, -, record, -, -, rfl⟩ | ⟨rfl, -, -, rfl⟩ | ⟨rfl, -, -, rfl⟩ := exec_cases h
  · exact ⟨_, _, h, rfl, rfl, rfl, .inl ⟨e, rfl⟩⟩
  · exact ⟨_, _, h, rfl, rfl, rfl, .inr rfl⟩
  · exact ⟨_, _, h, rfl, rfl, rfl, .inr ⟨_, rfl⟩⟩
  · exact ⟨_, _, h, rfl, rfl, rfl, .inr ⟨_, rfl⟩⟩
  · refine ⟨_, _, h, rfl, rfl, rfl, .inr ?_⟩
    cases i with
    | appendT1 => rfl
    | appendT2 => rfl
    | appendT4 => rfl
    | appendT16 => rfl
    | _ => cases hi
  · exact ⟨_, _, h, rfl, rfl, rfl, .inr ⟨_, rfl⟩⟩
  · exact ⟨_, _, h, rfl, rfl, rfl, .inr ⟨_, rfl⟩⟩

/-! ### The size of a record -/

theorem longRecord_length {s : State} {rt flags : Byte} {t : U32} {st : Byte} {body r : Bytes}
    (h : longRecord s rt flags t st body = .ok r) : r.length = 18 + body.length := by
  rw [longRecord_eq] at h
  split at h
  · cases h
    simp only [List.length_append, headerLong_length, le16_length, List.length_cons, List.length_nil]
    omega
  · cases h

theorem shortRecord_length {s : State} {rt : Byte} {body r : Bytes}
    (h : shortRecord s rt body = .ok r) : r.length = 10 + body.length := by
  rw [shortRecord_eq] at h
  split at h
  · cases h
    simp only [List.length_append, headerShort_length, le16_length, List.length_cons, List.length_nil]
    omega
  · cases h

theorem recordT1_length {s : State} {now : Int} {r : Bytes} (h : recordT1 s now = .ok r) :
    r.length = 57 + s.imei.val.length := by
  obtain ⟨-, -, ht⟩ | ⟨-, ht⟩ := ts_cases s.cfg now <;>
    simp only [recordT1, ht, bind, Except.bind] at h
  · rw [longRecord_length h, body1_length]
    omega
  · cases h

theorem recordT2_length {s : State} {now : Int} {r : Bytes} (h : recordT2 s now = .ok r) :
    r.length = 26 := by
  obtain ⟨-, -, ht⟩ | ⟨-, ht⟩ := ts_cases s.cfg now <;>
    simp only [recordT2, ht, bind, Except.bind] at h
  · rw [longRecord_length h, body2_length]
  · cases h

theorem recordT4_length {s : State} {r : Bytes} (h : recordT4 s = .ok r) :
    r.length = 17 + s.imei.val.length := by
  rw [shortRecord_length h, body4_length]
  omega

theorem recordT16_length {s : State} {now : Int} {lat lon spd : Option F64} {r : Bytes}
    (h : recordT16 s now lat lon spd = .ok r) : r.length = 39 := by
  obtain ⟨_, _, _, _, _, _, _, -, -, -, -, -, -, -, h⟩ := recordT16_ok h
  rw [longRecord_length h, body16_length]

/-- An APPEND that completes adds its record to PENDING (R160). -/
theorem appendRecord_pending_length {s t : State} {r : Except ErrorCode Bytes} {n : Nat}
    (hr : ∀ record, r = .ok record → record.length = n) (h : appendRecord r s = .next t)
    (hout : t.output = s.output ++ [.ok .none]) : t.pending.val.length = s.pending.val.length + n := by
  obtain ⟨e, rfl⟩ | ⟨-, record, hrecord, -, rfl⟩ := appendRecord_cases h
  · simp at hout
  · simp [hr record hrecord]

/-- Settles O44: the header, the service block's three bytes and the body of each record type. -/
theorem recordSizes : Obligations.RecordSizes := by
  intro i s t hi h hout
  cases i with
  | appendT1 now => exact appendRecord_pending_length (fun _ => recordT1_length) h hout
  | appendT2 now => exact appendRecord_pending_length (fun _ => recordT2_length) h hout
  | appendT4 => exact appendRecord_pending_length (fun _ => recordT4_length) h hout
  | appendT16 now lat lon spd => exact appendRecord_pending_length (fun _ => recordT16_length) h hout
  | _ => cases hi

end Machine

end Sys2Proof
end

section
/-! PROOF. SESSION_INIT of spec/40_session.md: the session it creates (R100, R102), and the number of the first
record after it (R101). -/

namespace Sys2Proof.Machine

open Sys2Proof

theorem exec_sessionInit (tid : U32) (im : Bytes) (s : State) :
    exec (.sessionInit tid im) s = .next ((s.newSession tid im).respond (.ok .none)) := rfl

/-- An APPEND that completes has committed a record that carries the counter's number (R160). -/
theorem exec_append_ok {i : Instr} {s t : State} (hi : i.isAppend = true) (h : exec i s = .next t)
    (hout : t.output = s.output ++ [.ok .none]) :
    ∃ record, IsRecord s.recordCounter.val record ∧ t = (s.commitRecord record).respond (.ok .none) := by
  obtain ⟨e, rfl⟩ | ⟨-, record, hrec, -, ht⟩ := exec_append_cases hi h
  · simp at hout
  · exact ⟨record, hrec, ht⟩

/-- Every record carries its number behind the two bytes of its length (R80, R81). -/
theorem IsRecord.number_bytes {n : U16} {r : Bytes} (h : IsRecord n r) : (r.drop 2).take 2 = le16 n := by
  obtain ⟨rl, tail, rfl, -⟩ := h
  rfl

/-- Settles O20: SESSION_INIT empties PENDING and sets the counter to 1, and the APPEND commits one record. -/
theorem firstRecordOfASessionIsNumberOne : Obligations.FirstRecordOfASessionIsNumberOne := by
  intro s t u tid im i hi hinit happend hout
  obtain ⟨record, hrec, rfl⟩ := exec_append_ok hi happend hout
  rw [exec_sessionInit] at hinit
  cases hinit
  have hnumber : (record.drop 2).take 2 = le16 1 := hrec.number_bytes
  exact ⟨rfl, rfl, hnumber.trans (by decide), rfl⟩

/-- Settles O19: the completed command is `State.newSession`; the decoder checks SUB before it. -/
theorem sessionInitCreatesOrReplacesTheSession : Obligations.SessionInitCreatesOrReplacesTheSession := by
  refine ⟨fun s tid im => ⟨_, exec_sessionInit tid im s, ?_⟩, fun c hop hsub => ?_⟩
  · exact ⟨rfl, rfl, rfl, rfl, rfl, rfl, rfl, rfl, rfl, rfl, rfl, rfl⟩
  · rw [decode_error_iff]
    exact .inr ⟨.inr ⟨by simp [hop], hsub⟩, rfl⟩

end Sys2Proof.Machine
end

section
/-! PROOF. The checksum engines of spec/41_checksum.md: the two commands (R114 to R117), the default tables
(R110 to R113), and what those make of the CRCs: the bitwise form, the zero residue (R118) and the detection
of one changed byte (R120). -/

namespace Sys2Proof.Machine

open Sys2Proof

/-! ### The engines and their commands -/

theorem exec_crc8 (data : Bytes) (s : State) :
    exec (.crc8 data) s = .next (s.respond (.ok (.u8 (crc8 s.rom8 data)))) := rfl

theorem exec_crc16 (data : Bytes) (s : State) :
    exec (.crc16 data) s = .next (s.respond (.ok (.u16 (crc16 s.rom16 data)))) := rfl

/-- R74: the record type of an APPEND is the only nonzero SUB. -/
theorem decode_error_of_sub_ne_zero {c : Command} (hop : c.op ≠ 0x04) (hsub : c.sub ≠ 0x00) :
    decode c = .error .illegalCommand :=
  decode_error_iff.mpr (.inr ⟨.inr ⟨hop, hsub⟩, rfl⟩)

theorem crc8From_eq_foldl (rom8 : Vector Byte 256) (acc : Byte) (s : Bytes) :
    crc8From rom8 acc s = s.foldl (fun acc b => readRom8 rom8 (acc ^^^ b)) acc := by
  induction s generalizing acc with
  | nil => rfl
  | cons b s ih => exact ih _

theorem crc16From_eq_foldl (rom16 : Vector U16 256) (acc : U16) (s : Bytes) :
    crc16From rom16 acc s = s.foldl (crc16Step rom16) acc := by
  induction s generalizing acc with
  | nil => rfl
  | cons b s ih => exact ih _

theorem crc8From_append (rom8 : Vector Byte 256) (acc : Byte) (s t : Bytes) :
    crc8From rom8 acc (s ++ t) = crc8From rom8 (crc8From rom8 acc s) t := by
  simp only [crc8From_eq_foldl, List.foldl_append]

theorem crc16From_append (rom16 : Vector U16 256) (acc : U16) (s t : Bytes) :
    crc16From rom16 acc (s ++ t) = crc16From rom16 (crc16From rom16 acc s) t := by
  simp only [crc16From_eq_foldl, List.foldl_append]

/-- Settles O21: the engine's loop is the fold over the data; the decoder checks SUB before it. -/
theorem crc8FoldsTheRomOverTheData : Obligations.Crc8FoldsTheRomOverTheData := by
  refine ⟨fun s data => ?_, fun c hop => decode_error_of_sub_ne_zero (by simp [hop])⟩
  rw [exec_crc8, crc8, crc8From_eq_foldl]
  rfl

/-- Settles O22: as O21; the high byte of the accumulator is its bits 15:8. -/
theorem crc16FoldsTheRomOverTheData : Obligations.Crc16FoldsTheRomOverTheData := by
  refine ⟨fun s data => ?_, fun c hop => decode_error_of_sub_ne_zero (by simp [hop])⟩
  rw [exec_crc16, crc16, crc16From_eq_foldl]
  rfl

/-! ### The default tables -/

/-- Every row of R111 against the rule of R110. -/
theorem defaultTable8List_eq :
    defaultTable8List = (List.range 256).map fun i => shiftSteps 0x31 8 (BitVec.ofNat 8 i) := by
  decide +kernel

/-- Every row of R113 against the rule of R112. -/
theorem defaultTable16List_eq :
    defaultTable16List =
      (List.range 256).map fun i => shiftSteps 0x1021 8 ((BitVec.ofNat 8 i).setWidth 16 <<< 8) := by
  decide +kernel

theorem readRom8_defaultTable8 (i : Byte) : readRom8 defaultTable8 i = shiftSteps 0x31 8 i := by
  simp [readRom8, defaultTable8, defaultTable8List_eq]

theorem readRom16_defaultTable16 (i : Byte) :
    readRom16 defaultTable16 i = shiftSteps 0x1021 8 (i.setWidth 16 <<< 8) := by
  simp [readRom16, defaultTable16, defaultTable16List_eq]

/-- Settles O23: the listed rows are the generated ones, entry by entry. -/
theorem defaultRomsFollowTheirGenerationRules : Obligations.DefaultRomsFollowTheirGenerationRules :=
  ⟨readRom8_defaultTable8, readRom16_defaultTable16⟩

/-! ### The shift steps -/

/-- One shift step of the generation rules (R110, R112). -/
def shiftStep {w : Nat} (poly r : BitVec w) : BitVec w :=
  if r.msb then (r <<< 1) ^^^ poly else r <<< 1

theorem shiftSteps_succ {w : Nat} (poly : BitVec w) (n : Nat) (r : BitVec w) :
    shiftSteps poly (n + 1) r = shiftSteps poly n (shiftStep poly r) := rfl

/-- A step moves every bit up by one and adds the polynomial when the top bit falls out. -/
theorem shiftStep_eq_xor {w : Nat} (poly r : BitVec w) :
    shiftStep poly r = (r <<< 1) ^^^ (if r.msb then poly else 0) := by
  unfold shiftStep
  split
  · rfl
  · exact BitVec.xor_zero.symm

theorem shiftStep_xor {w : Nat} (poly a b : BitVec w) :
    shiftStep poly (a ^^^ b) = shiftStep poly a ^^^ shiftStep poly b := by
  have hcarry : (if (a ^^^ b).msb then poly else 0) =
      (if a.msb then poly else 0) ^^^ (if b.msb then poly else 0) := by
    rw [BitVec.msb_xor]
    cases a.msb <;> cases b.msb <;> simp
  simp only [shiftStep_eq_xor, hcarry, BitVec.shiftLeft_xor_distrib]
  ac_rfl

theorem shiftSteps_xor {w : Nat} (poly : BitVec w) (n : Nat) (a b : BitVec w) :
    shiftSteps poly n (a ^^^ b) = shiftSteps poly n a ^^^ shiftSteps poly n b := by
  induction n generalizing a b with
  | zero => rfl
  | succ n ih => rw [shiftSteps_succ, shiftStep_xor, ih]; rfl

/-- A value with `n` zero bits at the top takes `n` steps without the polynomial. -/
theorem shiftSteps_eq_shiftLeft {w : Nat} (poly : BitVec w) {n : Nat} {r : BitVec w}
    (h : r.toNat * 2 ^ n < 2 ^ w) : shiftSteps poly n r = r <<< n := by
  induction n generalizing r with
  | zero => exact (BitVec.shiftLeft_zero r).symm
  | succ n ih =>
    have hnext : r.toNat * 2 * 2 ^ n < 2 ^ w := by rwa [Nat.mul_assoc, ← Nat.pow_succ']
    have htop : r.toNat * 2 < 2 ^ w := (Nat.le_mul_of_pos_right _ (by positivity)).trans_lt hnext
    have hmsb : r.msb = false := BitVec.msb_eq_false_iff_two_mul_lt.mpr (by omega)
    have hstep : shiftStep poly r = r <<< 1 := by simp [shiftStep, hmsb]
    have hdouble : (r <<< 1).toNat = r.toNat * 2 := by
      rw [BitVec.toNat_shiftLeft, Nat.shiftLeft_eq, pow_one, Nat.mod_eq_of_lt htop]
    rw [shiftSteps_succ, hstep, ih (by rwa [hdouble]), ← BitVec.shiftLeft_add, Nat.add_comm]

/-- With a constant term in the polynomial, the bit that falls out of a step is its lowest bit. -/
theorem shiftStep_getLsbD_zero {w : Nat} {poly : BitVec w} (hpoly : poly.getLsbD 0 = true)
    (r : BitVec w) : (shiftStep poly r).getLsbD 0 = r.msb := by
  rw [shiftStep_eq_xor]
  cases r.msb <;> simp [hpoly]

/-- A shift by one loses only the top bit. -/
theorem eq_of_msb_eq_of_shiftLeft_one_eq {w : Nat} {a b : BitVec w} (hmsb : a.msb = b.msb)
    (hshift : a <<< 1 = b <<< 1) : a = b := by
  ext i hi
  obtain hlast | hlt := eq_or_lt_of_le (Nat.succ_le_of_lt hi)
  · obtain rfl : i = w - 1 := by omega
    simpa [BitVec.msb_eq_getLsbD_last, hi] using hmsb
  · have hbit := congrArg (BitVec.getLsbD · (i + 1)) hshift
    simpa [hlt] using hbit

theorem shiftStep_injective {w : Nat} {poly : BitVec w} (hpoly : poly.getLsbD 0 = true) :
    Function.Injective (shiftStep poly) := by
  intro a b h
  have hmsb : a.msb = b.msb := by
    rw [← shiftStep_getLsbD_zero hpoly a, h, shiftStep_getLsbD_zero hpoly b]
  rw [shiftStep_eq_xor, shiftStep_eq_xor, hmsb] at h
  exact eq_of_msb_eq_of_shiftLeft_one_eq hmsb ((BitVec.xor_left_inj _).mp h)

theorem shiftSteps_injective {w : Nat} {poly : BitVec w} (hpoly : poly.getLsbD 0 = true) (n : Nat) :
    Function.Injective (shiftSteps poly n) := by
  induction n with
  | zero => exact fun _ _ h => h
  | succ n ih => exact ih.comp (shiftStep_injective hpoly)

/-! ### The bitwise CRCs -/

theorem lowByte_xor_highByte (v : U16) :
    (v.extractLsb' 0 8).setWidth 16 ^^^ (v.extractLsb' 8 8).setWidth 16 <<< 8 = v := by
  ext i hi
  by_cases h : i < 8
  · simp [h, hi]
  · simp [h, hi, show i - 8 < 8 by omega, show 8 + (i - 8) = i by omega]

/-- The low byte of the accumulator meets no polynomial in eight steps, and the high byte joins the new byte
in the table's index. -/
theorem crc16Step_defaultTable16 (acc : U16) (b : Byte) :
    crc16Step defaultTable16 acc b = shiftSteps 0x1021 8 (acc ^^^ (b.setWidth 16 <<< 8)) := by
  have hsplit : acc ^^^ (b.setWidth 16 <<< 8) =
      (acc.extractLsb' 0 8).setWidth 16 ^^^ ((acc.extractLsb' 8 8 ^^^ b).setWidth 16 <<< 8) := by
    rw [BitVec.setWidth_xor, BitVec.shiftLeft_xor_distrib, ← BitVec.xor_assoc, lowByte_xor_highByte]
  have hlow : shiftSteps 0x1021 8 ((acc.extractLsb' 0 8).setWidth 16) = acc <<< 8 := by
    rw [shiftSteps_eq_shiftLeft _ (by bv_omega)]
    ext i hi
    simp [show i - 8 < 8 by omega, show i - 8 < 16 by omega]
  rw [hsplit, shiftSteps_xor, hlow, ← readRom16_defaultTable16]
  rfl

theorem crc8_defaultTable8 (s : Bytes) :
    crc8 defaultTable8 s = s.foldl (fun acc b => shiftSteps 0x31 8 (acc ^^^ b)) 0xFF := by
  rw [crc8, crc8From_eq_foldl]
  simp only [readRom8_defaultTable8]

theorem crc16_defaultTable16 (s : Bytes) :
    crc16 defaultTable16 s =
      s.foldl (fun (acc : U16) (b : Byte) => shiftSteps 0x1021 8 (acc ^^^ (b.setWidth 16 <<< 8)))
        0xFFFF := by
  rw [crc16, crc16From_eq_foldl, funext₂ crc16Step_defaultTable16]

/-- Settles O24: each entry read is eight shift steps. -/
theorem crc8EqualsTheBitwiseCrc : Obligations.Crc8EqualsTheBitwiseCrc := by
  intro s data hrom
  rw [← crc8_defaultTable8, ← hrom]
  exact exec_crc8 data s

/-- Settles O25: each step of the engine is eight shift steps. -/
theorem crc16EqualsTheBitwiseCrc : Obligations.Crc16EqualsTheBitwiseCrc := by
  intro s data hrom
  rw [← crc16_defaultTable16, ← hrom]
  exact exec_crc16 data s

/-! ### Residue and error detection -/

theorem crc8From_self (acc : Byte) : crc8From defaultTable8 acc [acc] = 0 := by
  rw [crc8From, crc8From, BitVec.xor_self]
  rfl

/-- A byte that cancels the high byte of the accumulator leaves the low byte shifted. -/
theorem crc16Step_highByte (acc : U16) :
    crc16Step defaultTable16 acc (acc.extractLsb' 8 8) = acc <<< 8 := by
  rw [crc16Step, BitVec.xor_self]
  exact BitVec.xor_zero

theorem crc16From_self (acc : U16) :
    crc16From defaultTable16 acc [acc.extractLsb' 8 8, acc.extractLsb' 0 8] = 0 := by
  have hlow : acc.extractLsb' 0 8 = (acc <<< 8).extractLsb' 8 8 := by
    ext i hi
    simp [show i < 16 by omega, show 8 + i < 16 by omega]
  rw [crc16From, crc16From, crc16From, crc16Step_highByte, hlow, crc16Step_highByte]
  bv_omega

/-- Settles O26: the CRC's own bytes cancel the accumulator. -/
theorem crcResidueIsZero : Obligations.CrcResidueIsZero := by
  refine fun data => ⟨?_, ?_⟩
  · rw [crc8, crc8From_append]
    exact crc8From_self _
  · rw [crc16, crc16From_append]
    exact crc16From_self _

theorem crc16Step_acc_injective (b : Byte) :
    Function.Injective fun acc => crc16Step defaultTable16 acc b := by
  intro acc acc' h
  simp only [crc16Step_defaultTable16] at h
  exact (BitVec.xor_left_inj _).mp (shiftSteps_injective (by decide) 8 h)

theorem crc16Step_byte_injective (acc : U16) : Function.Injective (crc16Step defaultTable16 acc) := by
  intro a b h
  simp only [crc16Step_defaultTable16] at h
  have hbyte := (BitVec.xor_right_inj acc).mp (shiftSteps_injective (by decide) 8 h)
  bv_omega

theorem crc16From_injective (s : Bytes) :
    Function.Injective fun acc => crc16From defaultTable16 acc s := by
  induction s with
  | nil => exact fun _ _ h => h
  | cons b s ih => exact ih.comp (crc16Step_acc_injective b)

/-- Settles O27: the changed byte separates the accumulators, and no later byte joins them again. -/
theorem oneChangedByteChangesTheCrc16 : Obligations.OneChangedByteChangesTheCrc16 := by
  intro front back a b hab h
  simp only [crc16, crc16From_append] at h
  exact hab (crc16Step_byte_injective _ (crc16From_injective back h))

end Sys2Proof.Machine
end

section
/-! PROOF. The field encoders and records of spec/42_subrecord.md: the timestamp, the coordinate, the speed and
the position flags (R130 to R134), and the four APPEND commands with their errors (R135 to R147, R160). -/

namespace Sys2Proof.Machine

open Sys2Proof

/-! ### An encoded integer -/

/-- An encoder truncates an integer to its field. -/
theorem toNat_ofInt_eq_emod (w : Nat) (n : Int) : ((BitVec.ofInt w n).toNat : Int) = n % 2 ^ w := by
  have hpos : (0 : Int) < 2 ^ w := by positivity
  rw [BitVec.toNat_ofInt, Nat.cast_pow, Nat.cast_ofNat, Int.toNat_of_nonneg (Int.emod_nonneg n hpos.ne')]

theorem toNat_ofInt_of_fits {w : Nat} {n : Int} (h0 : 0 ≤ n) (h1 : n ≤ 2 ^ w - 1) :
    ((BitVec.ofInt w n).toNat : Int) = n := by
  rw [toNat_ofInt_eq_emod, Int.emod_eq_of_lt h0 (by omega)]

/-! ### The timestamp -/

theorem ts_inRange {cfg : Cfg} {now : Int} (h0 : 0 ≤ now - cfg.tzOffset)
    (h1 : now - cfg.tzOffset ≤ 2 ^ 32 - 1) :
    ts cfg now = .ok (BitVec.ofInt 32 (now - cfg.tzOffset)) :=
  if_pos ⟨h0, h1⟩

theorem ts_outOfRange {cfg : Cfg} {now : Int}
    (h : ¬ (0 ≤ now - cfg.tzOffset ∧ now - cfg.tzOffset ≤ 2 ^ 32 - 1)) :
    ts cfg now = .error .fieldRange :=
  if_neg h

/-- Settles O29: a number of 32 bits loses nothing in its field. -/
theorem timestampSubtractsTheOffset : Obligations.TimestampSubtractsTheOffset :=
  fun _ _ => ⟨fun ⟨h0, h1⟩ => ⟨_, ts_inRange h0 h1, toNat_ofInt_of_fits h0 h1⟩, ts_outOfRange⟩

/-! ### The sign -/

/-- `abs` keeps the 63 bits below the sign. -/
theorem f64Abs_toNat (d : F64) : (f64Abs d).toNat = d.toNat % 2 ^ 63 := by
  rw [f64Abs, BitVec.toNat_and]
  exact Nat.and_two_pow_sub_one_eq_mod d.toNat 63

theorem f64Abs_toNat_eq_fields (d : F64) : (f64Abs d).toNat = f64Exp d * 2 ^ 52 + f64Fraction d := by
  rw [f64Abs_toNat, f64Exp, f64Fraction, BitVec.extractLsb'_toNat, BitVec.extractLsb'_toNat,
    Nat.shiftRight_eq_div_pow, Nat.shiftRight_zero]
  omega

/-- A normal magnitude holds its hidden bit, so a magnitude is zero where both fields are. -/
theorem f64Units_eq_zero_iff (d : F64) : f64Units d = 0 ↔ f64Exp d = 0 ∧ f64Fraction d = 0 := by
  unfold f64Units
  split
  next hsub => simp [hsub]
  next hnormal => simp [hnormal, Nat.shiftLeft_eq]

theorem f64Abs_eq_zero_iff (d : F64) : f64Abs d = 0#64 ↔ f64Units d = 0 := by
  rw [f64Units_eq_zero_iff, ← BitVec.toNat_inj, f64Abs_toNat_eq_fields]
  exact Nat.add_eq_zero_iff.trans (and_congr_left' (mul_eq_zero_iff_right (by decide)))

theorem f64IsNaN_of_isFinite {d : F64} (h : f64IsFinite d = true) : f64IsNaN d = false := by
  rw [f64IsFinite, bne_iff_ne] at h
  simp [f64IsNaN, h]

/-- Settles O38: of the finite values with the sign bit only minus zero has no magnitude. -/
theorem negativeMeansBelowZero : Obligations.NegativeMeansBelowZero := by
  refine ⟨fun d hfin => ?_, fun d hnan => ?_, by decide, by decide⟩
  · simp [f64IsNegative, f64IsNaN_of_isFinite hfin, f64Abs_eq_zero_iff]
  · simp [f64IsNegative, hnan]

/-- Settles O37: each negativity is one bit, shifted to its place. -/
theorem positionFlagsCarryTheSigns : Obligations.PositionFlagsCarryTheSigns := by
  intro lat lon
  unfold pflags
  cases f64IsNegative lon <;> cases f64IsNegative lat <;> decide

/-! ### The coordinate -/

theorem coordMagnitude_binary64 {cfg : Cfg} {d div : F64} (ha : cfg.arith = .binary64)
    (hq : f64IsFinite (f64Mul (f64Div (f64Abs d) div) f64MaxU32) = true) :
    coordMagnitude cfg d div =
      some (f64RoundInt cfg.round (f64Mul (f64Div (f64Abs d) div) f64MaxU32)) := by
  simp only [coordMagnitude, ha, if_pos hq]

theorem coordMagnitude_exactReal {cfg : Cfg} (d div : F64) (ha : cfg.arith = .exactReal) :
    coordMagnitude cfg d div =
      some (nearest cfg.round false ⟨f64Units d * 4294967295, f64Units div⟩ : Int) := by
  simp only [coordMagnitude, ha]

theorem coord_of_magnitude {cfg : Cfg} {d div : F64} {n : Int} (hfin : f64IsFinite d = true)
    (hn : coordMagnitude cfg d div = some n) (free : U32) :
    coord cfg d div free = .ok (BitVec.ofInt 32 n) := by
  rw [coord_finite hfin, hn, Option.elim_some]

/-- Settles O32: the field is the truncated magnitude. -/
theorem coordinateDividesThenMultiplies : Obligations.CoordinateDividesThenMultiplies :=
  fun _ _ div free ha =>
    ⟨fun hd => coord_not_finite hd div free, fun hd hq =>
      ⟨_, coord_of_magnitude hd (coordMagnitude_binary64 ha hq) free, toNat_ofInt_eq_emod 32 _⟩⟩

theorem f64Abs_f64Abs (d : F64) : f64Abs (f64Abs d) = f64Abs d := by
  rw [f64Abs, f64Abs, BitVec.and_assoc, BitVec.and_self]

theorem f64Abs_isFinite (d : F64) : f64IsFinite (f64Abs d) = f64IsFinite d := by
  rw [f64IsFinite, f64Abs_exp, f64IsFinite]

theorem coordMagnitude_f64Abs (cfg : Cfg) (d div : F64) :
    coordMagnitude cfg (f64Abs d) div = coordMagnitude cfg d div := by
  simp only [coordMagnitude, f64Abs_f64Abs, f64Abs_units]

/-- Settles O34: the encoder reads a coordinate through `abs`, its finiteness and its magnitude only. -/
theorem coordinateIgnoresTheSign : Obligations.CoordinateIgnoresTheSign := by
  intro cfg d div free
  simp only [coord, coordMagnitude_f64Abs, f64Abs_isFinite]

/-- The coordinate under the defaults of P_ROUND and P_ARITH. -/
theorem coord_of_defaults {cfg : Cfg} {d div : F64} {v : U32} (hround : cfg.round = .halfEven)
    (ha : cfg.arith = .binary64) (hd : f64IsFinite d = true)
    (hq : f64IsFinite (f64Mul (f64Div (f64Abs d) div) f64MaxU32) = true)
    (hv : BitVec.ofInt 32 (f64RoundInt .halfEven (f64Mul (f64Div (f64Abs d) div) f64MaxU32)) = v)
    (free : U32) : coord cfg d div free = .ok v := by
  rw [coord_of_magnitude hd (coordMagnitude_binary64 ha hq), hround, hv]

/-- Settles O35: each corner value's two operations are finite and give the listed field. -/
theorem coordinateCornerValues : Obligations.CoordinateCornerValues := by
  intro cfg free hround ha
  have corner {d : F64} {v : U32} := coord_of_defaults (d := d) (div := f64Ninety) (v := v) hround ha
  exact ⟨corner (by decide) (by decide +kernel) (by decide +kernel) free,
    corner (by decide) (by decide +kernel) (by decide +kernel) free,
    corner (by decide) (by decide +kernel) (by decide +kernel) free,
    corner (by decide) (by decide +kernel) (by decide +kernel) free⟩

/-- A fraction at most a whole number `b` that is a binary64 value rounds to at most `b`: whatever lies above
`b` is farther from the fraction than `b` itself. -/
theorem fl64_finite_units_le {x : Frac} {b : Nat} {c : F64} (neg : Bool) (hd : 0 < x.den)
    (hx : x.num ≤ b * x.den) (hb : b < 2 ^ 1024 - 2 ^ 970) (hc : f64Units c = b * 2 ^ 1074) :
    f64IsFinite (fl64 neg x) = true ∧ f64Units (fl64 neg x) ≤ b * 2 ^ 1074 := by
  have hbits : roundBits x < 2047 * 2 ^ 52 := by
    rw [roundBits_finite_iff x hd, overflow_bound_units]
    exact lt_of_le_of_lt hx (Nat.mul_lt_mul_of_pos_right hb hd)
  refine ⟨(fl64_isFinite_iff neg x).mpr hbits, ?_⟩
  have hnear := (fl64_nearest neg x hd hbits c).1
  have hbelow : x.num * 2 ^ 1074 ≤ b * 2 ^ 1074 * x.den := by
    rw [Nat.mul_right_comm]
    exact Nat.mul_le_mul_right _ hx
  rw [hc] at hnear
  unfold Frac.unitsError at hnear
  refine Nat.le_of_mul_le_mul_right (c := x.den) ?_ hd
  omega

theorem f64Units_maxU32 : f64Units f64MaxU32 = 4294967295 * 2 ^ 1074 := by decide +kernel

/-- The two operations of R131 on a magnitude within its divisor stay within 4294967295.0. -/
theorem scaled_units_le {d div : F64} (hpos : 0 < f64Units div) (hle : f64Units d ≤ f64Units div) :
    f64IsFinite (f64Mul (f64Div (f64Abs d) div) f64MaxU32) = true ∧
      f64Units (f64Mul (f64Div (f64Abs d) div) f64MaxU32) ≤ 4294967295 * 2 ^ 1074 := by
  have hdiv : f64Units (f64Div (f64Abs d) div) ≤ 1 * 2 ^ 1074 :=
    (fl64_finite_units_le (c := 0x3FF0000000000000) _ hpos (by rwa [f64Abs_units, Nat.one_mul])
      (by decide +kernel) (by decide +kernel)).2
  refine fl64_finite_units_le _ (by dsimp only; positivity) ?_ (by decide +kernel) f64Units_maxU32
  calc f64Units (f64Div (f64Abs d) div) * f64Units f64MaxU32
      ≤ 1 * 2 ^ 1074 * (4294967295 * 2 ^ 1074) := Nat.mul_le_mul hdiv f64Units_maxU32.le
    _ = 4294967295 * 2 ^ 2148 := by
      rw [show 2148 = 1074 + 1074 by rfl, pow_add]
      generalize 2 ^ 1074 = p
      ring

theorem scaled_sign {d div : F64} (hs : f64Sign div = false) :
    f64Sign (f64Mul (f64Div (f64Abs d) div) f64MaxU32) = false := by
  rw [f64Mul, fl64_sign, f64Div, fl64_sign, f64Abs_sign, hs]
  decide

theorem f64RoundInt_nonneg_le {rule : TieRule} {d : F64} {b : Nat} (hs : f64Sign d = false)
    (hle : f64Units d ≤ b * 2 ^ 1074) : 0 ≤ f64RoundInt rule d ∧ f64RoundInt rule d ≤ b := by
  have hunit : 0 < (f64Magnitude d).den := by rw [f64Magnitude]; positivity
  have := nearest_le rule false (f64Magnitude d) b hunit hle
  rw [f64RoundInt, hs]
  simp only [Bool.false_eq_true, if_false]
  omega

theorem coordMagnitude_inRange (cfg : Cfg) {d div : F64} (hs : f64Sign div = false)
    (hpos : 0 < f64Units div) (hle : f64Units d ≤ f64Units div) :
    ∃ n, coordMagnitude cfg d div = some n ∧ 0 ≤ n ∧ n ≤ 4294967295 := by
  cases ha : cfg.arith with
  | binary64 =>
    obtain ⟨hfin, hunits⟩ := scaled_units_le hpos hle
    exact ⟨_, coordMagnitude_binary64 ha hfin,
      f64RoundInt_nonneg_le (b := 4294967295) (scaled_sign hs) hunits⟩
  | exactReal =>
    have hx : f64Units d * 4294967295 ≤ 4294967295 * f64Units div := by omega
    have := nearest_le cfg.round false ⟨f64Units d * 4294967295, f64Units div⟩ _ hpos hx
    exact ⟨_, coordMagnitude_exactReal d div ha, by omega, by omega⟩

/-- Settles O33: both divisors are positive, so the magnitude is in range. -/
theorem coordinateInRangeIsNotTruncated : Obligations.CoordinateInRangeIsNotTruncated := by
  intro cfg d div hdiv hfin hle
  have hpositive : f64Sign div = false ∧ 0 < f64Units div := by
    rcases hdiv with rfl | rfl <;> decide +kernel
  obtain ⟨n, hn, h0, h1⟩ := coordMagnitude_inRange cfg hpositive.1 hpositive.2 hle
  exact ⟨n, hn, h0, h1, coord_of_magnitude hfin hn⟩

/-! ### The speed -/

theorem speedTenths_binary64 {cfg : Cfg} (v : F64) (ha : cfg.arith = .binary64) :
    speedTenths cfg v = if f64IsFinite (f64Mul v f64Ten) = true then
      some (f64RoundInt cfg.round (f64Mul v f64Ten)) else none := by
  simp only [speedTenths, ha]

theorem speed_inRange {cfg : Cfg} {v : F64} {n : Int} (hv : f64IsFinite v = true)
    (hn : speedTenths cfg v = some n) (h0 : 0 ≤ n) (h1 : n ≤ 65535) :
    speed cfg v = .ok (BitVec.ofInt 16 n) := by
  simp only [speed, if_pos hv, hn, if_pos (And.intro h0 h1)]

theorem speed_outOfRange {cfg : Cfg} {v : F64}
    (h : ¬ (f64IsFinite v = true ∧ ∃ n, speedTenths cfg v = some n ∧ 0 ≤ n ∧ n ≤ 65535)) :
    speed cfg v = .error .fieldRange := by
  obtain ⟨hv, n, hn, h0, h1, -⟩ | ⟨-, herr⟩ := speed_cases cfg v
  · exact absurd ⟨hv, n, hn, h0, h1⟩ h
  · exact herr

/-- Settles O36: the two clauses are the two answers of the range check. -/
theorem speedIsTenthsInRange : Obligations.SpeedIsTenthsInRange := by
  intro cfg v ha p
  have htenths := speedTenths_binary64 v ha
  refine ⟨fun hv hp h0 h1 => ?_, fun hbad => speed_outOfRange ?_⟩
  · rw [if_pos hp] at htenths
    exact ⟨_, speed_inRange hv htenths h0 h1, toNat_ofInt_of_fits h0 h1⟩
  · rintro ⟨hv, n, hn, h⟩
    rw [htenths, Option.ite_none_right_eq_some, Option.some_inj] at hn
    obtain ⟨hp, rfl⟩ := hn
    rcases hbad with hnan | hinf | hlow | hhigh
    · simp [hv] at hnan
    · simp [p, hp] at hinf
    · exact absurd h.1 hlow.not_ge
    · exact absurd h.2 hhigh.not_ge

/-! ### The common sequence of every APPEND -/

theorem exec_appendT1 (now : Int) (s : State) :
    exec (.appendT1 now) s = appendRecord (recordT1 s now) s := rfl

theorem exec_appendT2 (now : Int) (s : State) :
    exec (.appendT2 now) s = appendRecord (recordT2 s now) s := rfl

theorem exec_appendT4 (s : State) : exec .appendT4 s = appendRecord (recordT4 s) s := rfl

theorem exec_appendT16 (now : Int) (lat lon spd : Option F64) (s : State) :
    exec (.appendT16 now lat lon spd) s = appendRecord (recordT16 s now lat lon spd) s := rfl

theorem appendRecord_noSession {s : State} (r : Except ErrorCode Bytes) (hv : s.sessionValid = false) :
    appendRecord r s = .next (s.respond (.err .noSession)) := by
  simp [appendRecord, requireSession, hv, raiseError]

theorem appendRecord_error {s : State} {r : Except ErrorCode Bytes} {e : ErrorCode}
    (hv : s.sessionValid = true) (hr : r = .error e) : appendRecord r s = .next (s.respond (.err e)) := by
  simp [appendRecord, requireSession, hv, hr, raiseError]

theorem appendRecord_ok {s : State} {r : Except ErrorCode Bytes} {record : Bytes}
    (hv : s.sessionValid = true) (hr : r = .ok record) :
    appendRecord r s = if s.pending.val.length + record.length ≤ 65535 then
      .next ((s.commitRecord record).respond (.ok .none)) else .next (s.respond (.err .lengthOverflow)) := by
  simp only [appendRecord, requireSession, if_pos hv, hr]
  rfl

/-! ### The framed record -/

/-- The long record of a body that fits its length fields (R80, R82). -/
def longFrame (s : State) (rt flags : Byte) (t : U32) (st : Byte) (body : Bytes) : Bytes :=
  headerLong s (BitVec.ofNat 16 (body.length + 3)) flags t st st ++
    ([rt] ++ le16 (BitVec.ofNat 16 body.length) ++ body)

/-- The short record of a body that fits its length fields (R81, R82). -/
def shortFrame (s : State) (rt : Byte) (body : Bytes) : Bytes :=
  headerShort s (BitVec.ofNat 16 (body.length + 3)) ++
    ([rt] ++ le16 (BitVec.ofNat 16 body.length) ++ body)

theorem longRecord_fits {s : State} {rt flags : Byte} {t : U32} {st : Byte} {body : Bytes}
    (h : body.length + 3 ≤ 65535) :
    longRecord s rt flags t st body = .ok (longFrame s rt flags t st body) := by
  rw [longRecord_eq, if_pos h, longFrame]

theorem shortRecord_fits {s : State} {rt : Byte} {body : Bytes} (h : body.length + 3 ≤ 65535) :
    shortRecord s rt body = .ok (shortFrame s rt body) := by
  rw [shortRecord_eq, if_pos h, shortFrame]

/-- A body too long for its length fields is too long for PENDING too: R139 and R142 raise what R160
would. -/
theorem appendRecord_long {s : State} {rt flags : Byte} {t : U32} {st : Byte} {body : Bytes}
    (hv : s.sessionValid = true) :
    appendRecord (longRecord s rt flags t st body) s =
      if s.pending.val.length + (18 + body.length) ≤ 65535 then
        .next ((s.commitRecord (longFrame s rt flags t st body)).respond (.ok .none))
      else .next (s.respond (.err .lengthOverflow)) := by
  by_cases hbody : body.length + 3 ≤ 65535
  · rw [appendRecord_ok hv (longRecord_fits hbody), longRecord_length (longRecord_fits hbody)]
  · rw [appendRecord_error hv (by rw [longRecord_eq, if_neg hbody]), if_neg (by omega)]

/-- As `appendRecord_long`, for the record of type 4. -/
theorem appendRecord_short {s : State} {rt : Byte} {body : Bytes} (hv : s.sessionValid = true) :
    appendRecord (shortRecord s rt body) s =
      if s.pending.val.length + (10 + body.length) ≤ 65535 then
        .next ((s.commitRecord (shortFrame s rt body)).respond (.ok .none))
      else .next (s.respond (.err .lengthOverflow)) := by
  by_cases hbody : body.length + 3 ≤ 65535
  · rw [appendRecord_ok hv (shortRecord_fits hbody), shortRecord_length (shortRecord_fits hbody)]
  · rw [appendRecord_error hv (by rw [shortRecord_eq, if_neg hbody]), if_neg (by omega)]

/-- What a completed APPEND leaves, register by register (R160). -/
theorem commitRecord_respond_eq {s : State} {r record : Bytes} (h : r = record) :
    (s.commitRecord r).respond (.ok .none) = { s with
      pending := ⟨s.pending.val ++ record, true⟩
      recordCounter := ⟨s.recordCounter.val + 1, true⟩
      output := s.output ++ [.ok .none] } := by
  rw [h]
  rfl

/-! ### Types 1, 2 and 4 -/

/-- Types 1 and 2 check the timestamp, then the size (R139, R140, R160). -/
theorem appendRecord_timestamped {s : State} (now : Int) (rt : Byte) (body : Bytes)
    (hv : s.sessionValid = true) :
    appendRecord (do let t ← ts s.cfg now; longRecord s rt recordFlags t 0x01 body) s =
      if 0 ≤ now - s.cfg.tzOffset ∧ now - s.cfg.tzOffset ≤ 2 ^ 32 - 1 then
        if s.pending.val.length + (18 + body.length) ≤ 65535 then
          .next ((s.commitRecord (longFrame s rt recordFlags (BitVec.ofInt 32 (now - s.cfg.tzOffset)) 0x01
            body)).respond (.ok .none))
        else .next (s.respond (.err .lengthOverflow))
      else .next (s.respond (.err .fieldRange)) := by
  by_cases ht : 0 ≤ now - s.cfg.tzOffset ∧ now - s.cfg.tzOffset ≤ 2 ^ 32 - 1
  · rw [ts_inRange ht.1 ht.2, if_pos ht]
    exact appendRecord_long hv
  · rw [ts_outOfRange ht, if_neg ht]
    exact appendRecord_error hv rfl

/-- Settles O39: the frame of `body1`; its length fields count 39 and 42 bytes beside the IMEI. -/
theorem appendT1FramesTheTerminalIdentity : Obligations.AppendT1FramesTheTerminalIdentity := by
  intro s now t size record
  have hframe : longFrame s 0x01 recordFlags (BitVec.ofInt 32 t) 0x01 (body1 s) = record := by
    have hlen : (body1 s).length + 3 = 42 + s.imei.val.length := by rw [body1_length]; omega
    rw [longFrame, hlen, body1_length]
    simp only [record, headerLong, recordFlags, body1, List.append_assoc]
  rw [exec_appendT1, recordT1]
  refine ⟨fun hv h0 h1 hsize => ?_, appendRecord_noSession _, fun hv ht => ?_, fun hv h0 h1 hsize => ?_⟩
  · rw [appendRecord_timestamped now _ _ hv, if_pos ⟨h0, h1⟩, body1_length, if_pos (by omega),
      commitRecord_respond_eq hframe]
  · rw [appendRecord_timestamped now _ _ hv, if_neg (by omega), State.respond]
  · rw [appendRecord_timestamped now _ _ hv, if_pos ⟨h0, h1⟩, body1_length, if_neg (by omega),
      State.respond]

/-- Settles O40: the frame of the template, whose 8 bytes fix both length fields. -/
theorem appendT2FramesTheModuleData : Obligations.AppendT2FramesTheModuleData := by
  intro s now t record
  have hframe : longFrame s 0x02 recordFlags (BitVec.ofInt 32 t) 0x01 (body2 s) = record := by
    have hrl : le16 (BitVec.ofNat 16 (8 + 3)) = [0x0B, 0x00] := by decide
    have hlen : le16 (BitVec.ofNat 16 8) = [0x08, 0x00] := by decide
    rw [longFrame, body2_length, headerLong, hrl, hlen]
    simp only [record, recordFlags, body2, List.append_assoc, List.cons_append, List.nil_append]
  rw [exec_appendT2, recordT2]
  refine ⟨fun hv h0 h1 hsize => ?_, appendRecord_noSession _, fun hv ht => ?_, fun hv h0 h1 hsize => ?_⟩
  · rw [appendRecord_timestamped now _ _ hv, if_pos ⟨h0, h1⟩, body2_length, if_pos (by omega),
      commitRecord_respond_eq hframe]
  · rw [appendRecord_timestamped now _ _ hv, if_neg (by omega), State.respond]
  · rw [appendRecord_timestamped now _ _ hv, if_pos ⟨h0, h1⟩, body2_length, if_neg (by omega),
      State.respond]

/-- Settles O41: no encoder of type 4 has an error of its own, so only the size is checked. -/
theorem appendT4FramesTheServiceIdentity : Obligations.AppendT4FramesTheServiceIdentity := by
  intro s size record
  have hframe : shortFrame s 0x04 (body4 s) = record := by
    have hlen : (body4 s).length + 3 = 10 + s.imei.val.length := by rw [body4_length]; omega
    rw [shortFrame, hlen, body4_length]
    simp only [record, headerShort, body4, List.append_assoc]
  rw [exec_appendT4]
  refine ⟨fun hv hsize => ?_, appendRecord_noSession _, fun hv hsize => ?_⟩
  · rw [recordT4, appendRecord_short hv, body4_length, if_pos (by omega), commitRecord_respond_eq hframe]
  · rw [recordT4, appendRecord_short hv, body4_length, if_neg (by omega), State.respond]

/-! ### Type 16 -/

/-- The checks of R147 on the operands that are present. -/
def T16InRange (cfg : Cfg) (now : Int) (lat lon spd : F64) : Prop :=
  (0 ≤ now - cfg.tzOffset ∧ now - cfg.tzOffset ≤ 2 ^ 32 - 1) ∧ f64IsFinite lat = true ∧
    f64IsFinite lon = true ∧
    (f64IsFinite spd = true ∧ ∃ n, speedTenths cfg spd = some n ∧ 0 ≤ n ∧ n ≤ 65535)

/-- The latitude field of a finite latitude. -/
abbrev latitudeField (s : State) (lat : F64) : U32 :=
  (coordMagnitude s.cfg lat f64Ninety).elim (Config.latitudeOverflow s.freeIndex) (BitVec.ofInt 32)

/-- The longitude field of a finite longitude. -/
abbrev longitudeField (s : State) (lon : F64) : U32 :=
  (coordMagnitude s.cfg lon f64OneEighty).elim (Config.longitudeOverflow s.freeIndex) (BitVec.ofInt 32)

theorem recordT16_of_fields {s : State} {now : Int} {lat lon spd : F64} {t la lo : U32} {sp : U16}
    (ht : ts s.cfg now = .ok t)
    (hla : coord s.cfg lat f64Ninety (Config.latitudeOverflow s.freeIndex) = .ok la)
    (hlo : coord s.cfg lon f64OneEighty (Config.longitudeOverflow s.freeIndex) = .ok lo)
    (hsp : speed s.cfg spd = .ok sp) :
    recordT16 s now (some lat) (some lon) (some spd) =
      longRecord s 0x10 s.cfg.flagsT16 t 0x02 (body16 s t la lo (pflags lat lon) sp) := by
  simp only [recordT16, recordT16Present, ht, hla, hlo, hsp, bind, Except.bind]

theorem recordT16_inRange {s : State} {now : Int} {lat lon spd : F64}
    (h : T16InRange s.cfg now lat lon spd) {n : Int} (hn : speedTenths s.cfg spd = some n) :
    recordT16 s now (some lat) (some lon) (some spd) =
      longRecord s 0x10 s.cfg.flagsT16 (BitVec.ofInt 32 (now - s.cfg.tzOffset)) 0x02
        (body16 s (BitVec.ofInt 32 (now - s.cfg.tzOffset)) (latitudeField s lat) (longitudeField s lon)
          (pflags lat lon) (BitVec.ofInt 16 n)) := by
  obtain ⟨⟨h0, h1⟩, hlat, hlon, hspd, m, hm, hm0, hm1⟩ := h
  obtain rfl : m = n := Option.some.inj (hm.symm.trans hn)
  exact recordT16_of_fields (ts_inRange h0 h1) (coord_finite hlat _ _) (coord_finite hlon _ _)
    (speed_inRange hspd hn hm0 hm1)

/-- Every encoder answers `FieldRange` alone, so it is the error whichever check fails first (R209). -/
theorem recordT16_outOfRange {s : State} {now : Int} {lat lon spd : F64}
    (h : ¬ T16InRange s.cfg now lat lon spd) :
    recordT16 s now (some lat) (some lon) (some spd) = .error .fieldRange := by
  rw [recordT16, recordT16Present]
  by_cases ht : 0 ≤ now - s.cfg.tzOffset ∧ now - s.cfg.tzOffset ≤ 2 ^ 32 - 1
  · rw [ts_inRange ht.1 ht.2]
    cases hlat : f64IsFinite lat with
    | false => rw [coord_not_finite hlat]; rfl
    | true =>
      rw [coord_finite hlat]
      cases hlon : f64IsFinite lon with
      | false => rw [coord_not_finite hlon]; rfl
      | true => rw [coord_finite hlon, speed_outOfRange fun hspd => h ⟨ht, hlat, hlon, hspd⟩]; rfl
  · rw [ts_outOfRange ht]
    rfl

theorem recordT16_missing {s : State} {now : Int} {lat lon spd : Option F64}
    (h : lat = none ∨ lon = none ∨ spd = none) :
    recordT16 s now lat lon spd = .error .missingField := by
  unfold recordT16
  split
  · simp at h
  · rfl

/-- Settles O42: the frame of `body16`, whose 21 bytes fix both length fields. -/
theorem appendT16FramesThePosition : Obligations.AppendT16FramesThePosition := by
  intro s now lat lon spd sp t la lo record hv h0 h1 hlat hlon hspd hsp hsp0 hsp1 hsize
  have hrange : T16InRange s.cfg now lat lon spd := ⟨⟨h0, h1⟩, hlat, hlon, hspd, sp, hsp, hsp0, hsp1⟩
  have hframe : longFrame s 0x10 s.cfg.flagsT16 (BitVec.ofInt 32 t) 0x02
      (body16 s (BitVec.ofInt 32 t) la lo (pflags lat lon) (BitVec.ofInt 16 sp)) = record := by
    have hrl : le16 (BitVec.ofNat 16 (21 + 3)) = [0x18, 0x00] := by decide
    have hlen : le16 (BitVec.ofNat 16 21) = [0x15, 0x00] := by decide
    rw [longFrame, body16_length, headerLong, hrl, hlen]
    simp only [record, body16, List.append_assoc, List.cons_append, List.nil_append]
  rw [exec_appendT16, recordT16_inRange hrange hsp, appendRecord_long hv, body16_length,
    if_pos (by omega), commitRecord_respond_eq hframe]

theorem operands_present {lat lon spd : Option F64} (h : ¬ (lat = none ∨ lon = none ∨ spd = none)) :
    ∃ la lo sp, lat = some la ∧ lon = some lo ∧ spd = some sp := by
  simp only [not_or, ← ne_eq, Option.ne_none_iff_exists'] at h
  obtain ⟨⟨la, hla⟩, ⟨lo, hlo⟩, sp, hsp⟩ := h
  exact ⟨la, lo, sp, hla, hlo, hsp⟩

/-- Settles O43: the session, then the operands' presence, then their range, then the room for 39 bytes. -/
theorem appendT16ReportsTheFirstError : Obligations.AppendT16ReportsTheFirstError := by
  intro s now lat lon spd bad t inRange missing
  refine ⟨appendRecord_noSession _, fun hv hmissing => appendRecord_error hv (recordT16_missing hmissing),
    fun hv hpresent hout => ?_, fun hv hpresent hin hsize => ?_⟩
  · obtain ⟨la, lo, sp, rfl, rfl, rfl⟩ := operands_present hpresent
    have hrange : ¬ T16InRange s.cfg now la lo sp := by
      rintro ⟨⟨h0, h1⟩, hla, hlo, hsp⟩
      exact hout ⟨h0, h1, by simpa using hla, by simpa using hlo, by simpa using hsp⟩
    exact appendRecord_error hv (recordT16_outOfRange hrange)
  · obtain ⟨la, lo, sp, rfl, rfl, rfl⟩ := operands_present hpresent
    obtain ⟨h0, h1, hla, hlo, hsp⟩ := hin
    obtain ⟨hfin, n, hn, hn0, hn1⟩ := hsp sp rfl
    have hrange : T16InRange s.cfg now la lo sp :=
      ⟨⟨h0, h1⟩, hla la rfl, hlo lo rfl, hfin, n, hn, hn0, hn1⟩
    simp only [bad]
    rw [exec_appendT16, recordT16_inRange hrange hn, appendRecord_long hv, body16_length,
      if_neg (by omega), State.respond]

/-- Settles O45: the counter is a 16-bit word, so its sum wraps. -/
theorem appendNumbersItsRecordAndCountsUp : Obligations.AppendNumbersItsRecordAndCountsUp := by
  intro i s t hi h hout
  obtain ⟨record, hrec, rfl⟩ := exec_append_ok hi h hout
  exact ⟨record, rfl, hrec, rfl, BitVec.toNat_add s.recordCounter.val 1⟩

end Sys2Proof.Machine
end

section
/-! PROOF. TOTAL_LENGTH of spec/43_accumulator.md (R161), and the session gate of R208 that it shares with
FINALIZE and every APPEND. -/

namespace Sys2Proof.Machine

open Sys2Proof

/-! ### The session gate -/

theorem requireSession_valid {s : State} (k : StepResult) (hv : s.sessionValid = true) :
    requireSession s k = k := if_pos hv

theorem requireSession_noSession {s : State} (k : StepResult) (hv : s.sessionValid = false) :
    requireSession s k = .next (s.respond (.err .noSession)) := by
  rw [requireSession, hv]
  rfl

/-! ### TOTAL_LENGTH -/

theorem exec_totalLength_fits {s : State} (hv : s.sessionValid = true)
    (hlen : s.pending.val.length ≤ 65535) :
    exec .totalLength s = .next (s.respond (.ok (.u16 (BitVec.ofNat 16 s.pending.val.length)))) :=
  (requireSession_valid _ hv).trans (if_pos hlen)

theorem exec_totalLength_overflow {s : State} (hv : s.sessionValid = true)
    (hlen : 65535 < s.pending.val.length) :
    exec .totalLength s = .next (s.respond (.err .lengthOverflow)) :=
  (requireSession_valid _ hv).trans (if_neg hlen.not_ge)

theorem exec_totalLength_noSession {s : State} (hv : s.sessionValid = false) :
    exec .totalLength s = .next (s.respond (.err .noSession)) :=
  requireSession_noSession _ hv

/-- Settles O46: the gate and the check give one answer each, and a count the check lets through fits its
u16; the decoder checks SUB before it. -/
theorem totalLengthAnswersTheByteCount : Obligations.TotalLengthAnswersTheByteCount := by
  refine ⟨fun s => ⟨fun hv hlen => ?_, exec_totalLength_overflow, exec_totalLength_noSession⟩,
    fun c hop => decode_error_of_sub_ne_zero (by simp [hop])⟩
  have hcount : (BitVec.ofNat 16 s.pending.val.length).toNat = s.pending.val.length :=
    Nat.mod_eq_of_lt (Nat.lt_succ_of_le hlen)
  exact ⟨_, hcount, exec_totalLength_fits hv hlen⟩

end Sys2Proof.Machine
end

section
/-! PROOF. FINALIZE of spec/44_packet.md: the packet and what it writes (R170 to R173), and what a host reads
back from it (R174). -/

namespace Sys2Proof.Machine

open Sys2Proof

/-! ### The command -/

theorem exec_finalize_packet {s : State} (hv : s.sessionValid = true)
    (hlen : 0 < s.pending.val.length) :
    exec .finalize s = .next ((s.closePacket s.recordCounter.val).respond
      (.ok (.bytes (packet s.rom8 s.rom16 s.pending.val s.recordCounter.val)))) :=
  (requireSession_valid _ hv).trans (if_pos hlen)

theorem exec_finalize_empty {s : State} (hv : s.sessionValid = true)
    (hlen : s.pending.val.length = 0) :
    exec .finalize s = .next (s.respond (.err .emptyBuffer)) :=
  (requireSession_valid _ hv).trans (if_neg hlen.not_gt)

theorem exec_finalize_noSession {s : State} (hv : s.sessionValid = false) :
    exec .finalize s = .next (s.respond (.err .noSession)) :=
  requireSession_noSession _ hv

/-- Settles O47: one answer for each outcome of the gate and the check, the bytes written out being `packet`
unfolded; the decoder checks SUB before them. -/
theorem finalizeEmitsThePacket : Obligations.FinalizeEmitsThePacket :=
  ⟨fun _ => ⟨exec_finalize_packet, exec_finalize_empty, exec_finalize_noSession⟩,
    fun _ hop => decode_error_of_sub_ne_zero (by simp [hop])⟩

/-- A FINALIZE that answers bytes has closed the packet of its session. -/
theorem exec_finalize_ok {s t : State} {pkt : Bytes} (h : exec .finalize s = .next t)
    (hout : t.output = s.output ++ [.ok (.bytes pkt)]) :
    s.sessionValid = true ∧ pkt = packet s.rom8 s.rom16 s.pending.val s.recordCounter.val ∧
      t = (s.closePacket s.recordCounter.val).respond (.ok (.bytes pkt)) := by
  cases hv : s.sessionValid with
  | false =>
    rw [exec_finalize_noSession hv] at h
    cases h
    simp at hout
  | true =>
    obtain hlen | hlen := Nat.eq_zero_or_pos s.pending.val.length
    · rw [exec_finalize_empty hv hlen] at h
      cases h
      simp at hout
    · rw [exec_finalize_packet hv hlen] at h
      cases h
      obtain rfl : packet s.rom8 s.rom16 s.pending.val s.recordCounter.val = pkt := by simpa using hout
      exact ⟨rfl, rfl, rfl⟩

/-- Settles O48: the first FINALIZE keeps the session and leaves no byte pending. -/
theorem secondFinalizeFindsAnEmptyBuffer : Obligations.SecondFinalizeFindsAnEmptyBuffer := by
  intro s t pkt h hout
  obtain ⟨hv, -, rfl⟩ := exec_finalize_ok h hout
  exact exec_finalize_empty (by simpa using hv) (by simp)

/-! ### The parts of a packet -/

section Packet

variable (rom8 : Vector Byte 256) (rom16 : Vector U16 256) (recs : Bytes) (pid : U16)

/-- The header, and the three parts behind it: its CRC, the records and their CRC (R85). -/
theorem packet_eq : packet rom8 rom16 recs pid =
    header10 (BitVec.ofNat 16 recs.length) pid ++
      (crc8 rom8 (header10 (BitVec.ofNat 16 recs.length) pid) :: (recs ++ le16 (crc16 rom16 recs))) := by
  simp [packet]

theorem packet_length : (packet rom8 rom16 recs pid).length = 13 + recs.length := by
  simp only [packet_eq, List.length_append, List.length_cons, header10_length, le16_length]
  omega

/-- R170: the header CRC covers the ten bytes before it. -/
theorem packet_headerCrc : (packet rom8 rom16 recs pid)[10]? =
    some (crc8 rom8 ((packet rom8 rom16 recs pid).take 10)) := rfl

/-- R84: the header names its own length, with its CRC. -/
theorem packet_headerLength : (packet rom8 rom16 recs pid)[3]? = some 0x0B := rfl

theorem packet_recordLength :
    ((packet rom8 rom16 recs pid).drop 5).take 2 = le16 (BitVec.ofNat 16 recs.length) := rfl

theorem packet_drop_eleven :
    (packet rom8 rom16 recs pid).drop 11 = recs ++ le16 (crc16 rom16 recs) := by
  rw [packet_eq]
  rfl

end Packet

/-- Settles O49: by the parts of the packet; the invariant bounds its length field, and only that. -/
theorem packetFramingReadsBack : Obligations.PacketFramingReadsBack := by
  intro s t pkt hinv h hout
  obtain ⟨hv, rfl, -⟩ := exec_finalize_ok h hout
  obtain ⟨-, -, -, -, hwf⟩ := hinv hv
  have hfdl : (BitVec.ofNat 16 s.pending.val.length).toNat = s.pending.val.length :=
    Nat.mod_eq_of_lt (Nat.lt_succ_of_le hwf)
  refine ⟨packet_length .., packet_headerLength .., ?_, packet_headerCrc .., ?_, ?_⟩
  · rw [packet_recordLength, le16_map_toNat, hfdl]
  · rw [packet_drop_eleven, List.take_left]
  · rw [← List.drop_drop, packet_drop_eleven, List.drop_left]

end Sys2Proof.Machine
end

section
/-! PROOF. The errors of spec/60_exceptions.md: what an error response leaves (R200), that no run stops (R201),
and which commands raise NoSession (R208). -/

namespace Sys2Proof.Machine

open Sys2Proof

/-! ### The step -/

/-- A waiting command that does not decode is taken and answered by its error (R74). -/
theorem step_of_decode_error {s : State} {c : Command} {rest : List Command} {e : ErrorCode}
    (hin : s.input = c :: rest) (hdec : decode c = .error e) :
    step s = .next ((s.take rest).respond (.err e)) := by
  simp only [step, hin, hdec, raiseError]

/-- Settles O2: the step is `State.take` and the response, which write no register. -/
theorem rejectedWordOnlyAnswersItsError : Obligations.RejectedWordOnlyAnswersItsError :=
  fun _ _ _ _ => step_of_decode_error

/-- Settles O3: the first arm of `step`. -/
theorem engineWithoutCommandKeepsAllState : Obligations.EngineWithoutCommandKeepsAllState := by
  intro s hin
  simp only [step, hin]

/-- Every step that takes a command answers it once, whether it decodes or not. -/
theorem step_answers {s : State} {c : Command} {rest : List Command} (hin : s.input = c :: rest) :
    ∃ t r, step s = .next t ∧ t.input = rest ∧ t.output = s.output ++ [r] := by
  cases hdec : decode c with
  | error e => exact ⟨_, _, step_of_decode_error hin hdec, rfl, rfl⟩
  | ok i =>
    obtain ⟨t, r, hexec, hout, hinput, -, -⟩ := everyCommandAnswersOnce i (s.take rest)
    exact ⟨t, r, (step_of_decode_ok hin hdec).trans hexec, hinput, hout⟩

theorem run_succ_of_step {M : Host.Core} {s t : M.State} (h : M.step s = .next t) (k : Nat) :
    M.run (k + 1) s = M.run k t := by
  rw [Host.Core.run, h]

/-- Settles O13, by induction on the commands that wait. -/
theorem runAnswersEveryCommand : Obligations.RunAnswersEveryCommand := by
  intro s
  induction hin : s.input generalizing s with
  | nil => exact ⟨s, rfl, hin, [], (List.append_nil _).symm, rfl⟩
  | cons c rest ih =>
    obtain ⟨u, r, hstep, hinput, hr⟩ := step_answers hin
    obtain ⟨t, hrun, hempty, rs, hrs, hlen⟩ := ih u hinput
    refine ⟨t, (run_succ_of_step (M := core) hstep _).trans hrun, hempty, r :: rs, ?_, congrArg Nat.succ hlen⟩
    rw [hrs, hr, List.append_assoc, List.singleton_append]

/-! ### The state after an error -/

/-- Every command that writes a register answers ok. -/
theorem exec_error {i : Instr} {s t : State} {e : ErrorCode} (h : exec i s = .next t)
    (hout : t.output = s.output ++ [.err e]) : t = s.respond (.err e) := by
  obtain ⟨e', rfl⟩ | ⟨_, _, -, rfl⟩ | ⟨_, -, rfl⟩ | ⟨_, -, rfl⟩ | ⟨-, -, _, -, -, rfl⟩ |
    ⟨-, -, -, rfl⟩ | ⟨-, -, -, rfl⟩ := exec_cases h
  · obtain rfl : e' = e := by simpa using hout
    rfl
  -- every other case answers ok
  all_goals simp at hout

/-- Settles O15: an error of the decoder and an error of the command both leave the state that took it. -/
theorem errorLeavesEveryRegister : Obligations.ErrorLeavesEveryRegister := by
  intro s t c rest e hin hstep hout
  cases hdec : decode c with
  | error e' =>
    rw [step_of_decode_error hin hdec] at hstep
    cases hstep
    obtain rfl : e' = e := by simpa using hout
    rfl
  | ok i =>
    rw [step_of_decode_ok hin hdec] at hstep
    exact exec_error hstep hout

/-! ### Encoding a record does not raise NoSession -/

theorem bind_ne_noSession {α β : Type} {x : Except ErrorCode α} {f : α → Except ErrorCode β}
    (hx : x ≠ .error .noSession) (hf : ∀ a, f a ≠ .error .noSession) :
    (x >>= f) ≠ .error .noSession := by
  cases x with
  | error e => exact fun h => hx (congrArg Except.error (Except.error.inj h))
  | ok a => exact hf a

theorem ts_ne_noSession {cfg : Cfg} {now : Int} : ts cfg now ≠ .error .noSession := by
  obtain ⟨-, -, ht⟩ | ⟨-, ht⟩ := ts_cases cfg now
  · simp [ht]
  · simp [ht]

theorem coord_ne_noSession {cfg : Cfg} {d div : F64} {free : U32} :
    coord cfg d div free ≠ .error .noSession := by
  cases hfin : f64IsFinite d with
  | false => simp [coord_not_finite hfin]
  | true => simp [coord_finite hfin]

theorem speed_ne_noSession {cfg : Cfg} {v : F64} : speed cfg v ≠ .error .noSession := by
  obtain ⟨-, _, -, -, -, hv⟩ | ⟨-, hv⟩ := speed_cases cfg v
  · simp [hv]
  · simp [hv]

theorem longRecord_ne_noSession {s : State} {rt flags : Byte} {t : U32} {st : Byte} {body : Bytes} :
    longRecord s rt flags t st body ≠ .error .noSession := by
  rw [longRecord_eq]
  split
  · simp
  · simp

theorem shortRecord_ne_noSession {s : State} {rt : Byte} {body : Bytes} :
    shortRecord s rt body ≠ .error .noSession := by
  rw [shortRecord_eq]
  split
  · simp
  · simp

theorem recordT1_ne_noSession {s : State} {now : Int} : recordT1 s now ≠ .error .noSession :=
  bind_ne_noSession ts_ne_noSession fun _ => longRecord_ne_noSession

theorem recordT2_ne_noSession {s : State} {now : Int} : recordT2 s now ≠ .error .noSession :=
  bind_ne_noSession ts_ne_noSession fun _ => longRecord_ne_noSession

theorem recordT4_ne_noSession {s : State} : recordT4 s ≠ .error .noSession :=
  shortRecord_ne_noSession

theorem recordT16_ne_noSession {s : State} {now : Int} {lat lon spd : Option F64} :
    recordT16 s now lat lon spd ≠ .error .noSession := by
  unfold recordT16
  split
  · exact bind_ne_noSession ts_ne_noSession fun _ =>
      bind_ne_noSession coord_ne_noSession fun _ =>
      bind_ne_noSession coord_ne_noSession fun _ =>
      bind_ne_noSession speed_ne_noSession fun _ => longRecord_ne_noSession
  · simp

/-! ### The session gate -/

theorem raiseError_ne_noSession {e : ErrorCode} (he : e ≠ .noSession) (s : State) :
    raiseError e s ≠ raiseError .noSession s := by
  intro h
  have hstate : s.respond (.err e) = s.respond (.err .noSession) := Host.Outcome.next.inj h
  exact he (by simpa using congrArg State.output hstate)

theorem complete_ne_noSession {s u : State} (hout : u.output = s.output) (r : Result) :
    complete r u ≠ raiseError .noSession s := by
  intro h
  have hstate : u.respond (.ok r) = s.respond (.err .noSession) := Host.Outcome.next.inj h
  simpa [hout] using congrArg State.output hstate

theorem accumulate_ne_noSession (record : Bytes) (s : State) :
    accumulate record s ≠ raiseError .noSession s := by
  unfold accumulate
  split
  · exact complete_ne_noSession (by rfl) _
  · exact raiseError_ne_noSession (by decide) s

/-- A command raises NoSession at its gate or nowhere. -/
def GatedOnSession (s : State) (x : StepResult) : Prop :=
  ∃ k, k ≠ raiseError .noSession s ∧ x = requireSession s k

theorem appendRecord_gated (s : State) {r : Except ErrorCode Bytes} (hr : r ≠ .error .noSession) :
    GatedOnSession s (appendRecord r s) := by
  refine ⟨_, ?_, rfl⟩
  cases r with
  | ok record => exact accumulate_ne_noSession record s
  | error e => exact raiseError_ne_noSession (fun he => hr (congrArg Except.error he)) s

theorem execTotalLength_gated (s : State) : GatedOnSession s (execTotalLength s) := by
  refine ⟨_, ?_, rfl⟩
  split
  · exact complete_ne_noSession (by rfl) _
  · exact raiseError_ne_noSession (by decide) s

theorem execFinalize_gated (s : State) : GatedOnSession s (execFinalize s) := by
  refine ⟨_, ?_, rfl⟩
  split
  · exact complete_ne_noSession (by rfl) _
  · exact raiseError_ne_noSession (by decide) s

theorem exec_gated {i : Instr} (hi : i.needsSession = true) (s : State) : GatedOnSession s (exec i s) := by
  cases i with
  | sessionInit | crc8 | crc16 => cases hi
  | appendT1 now => exact appendRecord_gated s recordT1_ne_noSession
  | appendT2 now => exact appendRecord_gated s recordT2_ne_noSession
  | appendT4 => exact appendRecord_gated s recordT4_ne_noSession
  | appendT16 now lat lon spd => exact appendRecord_gated s recordT16_ne_noSession
  | totalLength => exact execTotalLength_gated s
  | finalize => exact execFinalize_gated s

/-- A command without the gate completes in every state. -/
theorem exec_ne_noSession_of_ungated {i : Instr} (hi : i.needsSession = false) (s : State) :
    exec i s ≠ raiseError .noSession s := by
  cases i with
  | sessionInit | crc8 | crc16 => exact complete_ne_noSession (by rfl) _
  | _ => cases hi

/-- Settles O16: a gated command raises NoSession at its gate only, the others have no gate. -/
theorem noSessionGate : Obligations.NoSessionGate := by
  refine fun i s => ⟨fun hi hv => ?_, fun hgate => ?_, rfl⟩
  · obtain ⟨k, -, hexec⟩ := exec_gated hi s
    exact hexec.trans (requireSession_noSession k hv)
  · cases hi : i.needsSession with
    | false => exact exec_ne_noSession_of_ungated hi s
    | true =>
      have hv : s.sessionValid = true := hgate.resolve_left (by simp [hi])
      obtain ⟨k, hk, hexec⟩ := exec_gated hi s
      rwa [hexec, requireSession_valid k hv]

end Sys2Proof.Machine
end

section
/-! PROOF. The reset event of spec/70_reset_and_hazards.md: what it leaves and that any command is accepted
after it (R230). -/

namespace Sys2Proof.Machine

open Sys2Proof

/-- A step with one command waiting, and no response so far, answers it with one response. -/
theorem step_answers_only_command {s : State} (c : Command) (hout : s.output = []) :
    ∃ t r, step { s with input := [c] } = .next t ∧ t.output = [r] := by
  obtain ⟨t, r, hstep, -, hr⟩ := step_answers (s := { s with input := [c] }) rfl
  exact ⟨t, r, hstep, by simpa [hout] using hr⟩

/-- Settles O10: the registers are those of the reset event, and a step answers any command it takes. -/
theorem resetLeavesNoSession : Obligations.ResetLeavesNoSession := by
  intro cfg rom8 rom16 c s
  have hout : s.output = [] := State.powerOn_output cfg rom8 rom16
  have haccept := step_answers_only_command c hout
  exact ⟨rfl, rfl, rfl, rfl, rfl, rfl, rfl, rfl, rfl, hout, haccept⟩

end Sys2Proof.Machine
end
